-- ==== Sys2Proof/Word.lean ====
section
/-! DEFINITION. The byte and the word of the core (rules R5, R7 of 00_scope.md). -/

namespace Sys2Proof

/-- "A byte is 8 bits" (R7); every 8-bit register and every memory location (R5). -/
abbrev Byte := BitVec 8

/-- "a word is 16 bits" (R7); pairs, SP and addresses in registers (R5). -/
abbrev Word := BitVec 16

end Sys2Proof
end

