-- ==== Sys2Proof/Machine/Bits.lean ====
section
/-! DEFINITION. Bit-field and byte-order helpers (rule R7 of 00_scope.md). -/

namespace Sys2Proof

/-- `zext_16(b)`: "the byte `b` as a word with bits 15:8 zero" (R7). -/
def zext16 (b : Byte) : Word := b.setWidth 16

/-- `trunc_8(w) = w[7:0]` (R7); also `lo(w)`. -/
def loByte (w : Word) : Byte := w.extractLsb' 0 8

/-- `hi(w) = w[15:8]` (R7). -/
def hiByte (w : Word) : Byte := w.extractLsb' 8 8

/-- `{a, b}`: "concatenation with `a` in the high bits: for bytes `a`, `b`, `{a, b} = a*256 + b`, a word" (R7). -/
def joinBytes (hi lo : Byte) : Word := BitVec.ofNat 16 (hi.toNat * 256 + lo.toNat)

end Sys2Proof
end

