-- ==== Sys2Proof/Config.lean ====
section
/-! DEFINITION. The implementation parameters of rule R6 (00_scope.md): `SE_OVERFLOW` and `ASSIGNED_G`, which a
step depends on. The third parameter, `MEM_INIT`, acts only when the core is constructed: it is the argument of
`State.construct` (Machine/Ops.lean). -/

namespace Sys2Proof

/-- `SE_OVERFLOW` (R6, decision D4): what the +1 / -1 of a side-effect load or store does at 0xFFFF and at 0x0000. -/
inductive SeOverflow where
  /-- `Fault`, the spec's default: the step raises `AddrRegOverflow`. -/
  | fault
  /-- `Wrap`: the address register wraps modulo 65536. -/
  | wrap
deriving DecidableEq, Repr, Inhabited

/-- The parameters of R6 that a step depends on (R80: "and of the parameters `SE_OVERFLOW`, `ASSIGNED_G`").
`ASSIGNED_G` is held by its complement: the tier G bytes LEFT OUT of it, for each table ("a byte of G left out of
`ASSIGNED_G` decodes to no-op"). A byte of the lists that is not of tier G has no effect (R73). -/
structure Params where
  seOverflow       : SeOverflow
  leftOutPrimary   : List Byte
  leftOutSecondary : List Byte
deriving DecidableEq, Repr

end Sys2Proof
end

