-- ==== Sys2Proof/Machine/Defaults.lean ====
section
/-! DEFINITION. The spec's default of each parameter of rule R6 (00_scope.md): `SE_OVERFLOW = Fault`, `ASSIGNED_G` = all of
tier G, `MEM_INIT` = all bytes 0x00. -/

namespace Sys2Proof

/-- The defaults of `SE_OVERFLOW` (decision D4, log entry 5) and of `ASSIGNED_G` (decision D1, log entry 4). -/
def defaultParams : Params :=
  { seOverflow := .fault, leftOutPrimary := [], leftOutSecondary := [] }

/-- What an address that the memory list does not name reads as: the default `MEM_INIT`, "all bytes 0x00"
(R6, decision D2, log entry 6). -/
def memBackground : Byte := 0x00

end Sys2Proof
end

