-- ==== Sys2Proof/Machine/Tiers.lean ====
section
/-! DEFINITION. The tiers of the opcode bytes (rules R67 to R69 of 30_encoding.md) and which bytes the parameters assign. -/

namespace Sys2Proof

/-- Tier S of the primary table, the no-op 0x00 apart (R67). -/
def tierSPrimary (op : Byte) : Bool :=
  [0x20, 0x31, 0xAF, 0xCB].contains op.toNat

/-- Tier S of the secondary table (R67). -/
def tierSSecondary (op : Byte) : Bool :=
  op.toNat == 0x7C

/-- Tier G of the primary table, 91 bytes, category by category as rule R68 lists them. -/
def tierGPrimary (op : Byte) : Bool :=
  [0x01, 0x11, 0x21].contains op.toNat
  || [0x06, 0x0E, 0x16, 0x1E, 0x26, 0x2E, 0x3E].contains op.toNat
  || (decide (0x40 ≤ op.toNat ∧ op.toNat ≤ 0x7F)
      && !([0x46, 0x4E, 0x56, 0x5E, 0x66, 0x6E, 0x70, 0x71, 0x72, 0x73, 0x74, 0x75, 0x76, 0x77, 0x7E] : List Nat).contains op.toNat)
  || op.toNat == 0xF9
  || op.toNat == 0x36
  || op.toNat == 0x08
  || [0x0A, 0x1A, 0x46, 0x4E, 0x56, 0x5E, 0x66, 0x6E, 0x7E].contains op.toNat
  || [0x2A, 0x3A].contains op.toNat
  || [0x02, 0x12, 0x70, 0x71, 0x72, 0x73, 0x74, 0x75, 0x77].contains op.toNat
  || [0x22, 0x32].contains op.toNat
  || [0xA8, 0xA9, 0xAA, 0xAB, 0xAC, 0xAD].contains op.toNat
  || op.toNat == 0x30

/-- Tier G of the secondary table, 55 bytes: "every byte 0x40..0x7F whose low three bits are not `110`, except 0x7C" (R68). -/
def tierGSecondary (op : Byte) : Bool :=
  decide (0x40 ≤ op.toNat ∧ op.toNat ≤ 0x7F) && op.toNat % 8 != 6 && op.toNat != 0x7C

/-- The primary table has an instruction other than NOP at `op` under the parameters `p` (R69, R73). -/
def Params.assignsPrimary (p : Params) (op : Byte) : Bool :=
  tierSPrimary op || (tierGPrimary op && !p.leftOutPrimary.contains op)

/-- The secondary table has an instruction other than NOP at `op` under the parameters `p` (R69, R73). -/
def Params.assignsSecondary (p : Params) (op : Byte) : Bool :=
  tierSSecondary op || (tierGSecondary op && !p.leftOutSecondary.contains op)

end Sys2Proof
end

