-- ==== Sys2Proof/Syntax.lean ====
section
/-! DEFINITION. The instructions: one constructor per mnemonic of spec/opcode_table.json (512 rows, 153 mnemonics), with the
operand bytes of its format (rule R60 of 30_encoding.md). The variant list is closed (R65, R66). `at` stands for the
parentheses of a memory operand: `ld_A_atHLinc` is `LD A,(HL+)`. -/

namespace Sys2Proof

/-- An instruction with its operands. The row's mnemonic, as rule R76 writes it, stands beside each constructor. -/
inductive Instr where
  /-- `NOP` (R84), with the opcode byte that stands for it: any byte the primary map leaves unassigned (R69). -/
  | nop (op : Byte)
  | ld_BC_d16 (v : Word)  -- LD BC,d16 (R91)
  | ld_DE_d16 (v : Word)  -- LD DE,d16 (R91)
  | ld_HL_d16 (v : Word)  -- LD HL,d16 (R91)
  | ld_SP_d16 (v : Word)  -- LD SP,d16 (R91)
  | ld_B_d8 (b : Byte)  -- LD B,d8 (R92)
  | ld_C_d8 (b : Byte)  -- LD C,d8 (R92)
  | ld_D_d8 (b : Byte)  -- LD D,d8 (R92)
  | ld_E_d8 (b : Byte)  -- LD E,d8 (R92)
  | ld_H_d8 (b : Byte)  -- LD H,d8 (R92)
  | ld_L_d8 (b : Byte)  -- LD L,d8 (R92)
  | ld_A_d8 (b : Byte)  -- LD A,d8 (R92)
  | ld_B_B  -- LD B,B (R93)
  | ld_B_C  -- LD B,C (R93)
  | ld_B_D  -- LD B,D (R93)
  | ld_B_E  -- LD B,E (R93)
  | ld_B_H  -- LD B,H (R93)
  | ld_B_L  -- LD B,L (R93)
  | ld_B_A  -- LD B,A (R93)
  | ld_C_B  -- LD C,B (R93)
  | ld_C_C  -- LD C,C (R93)
  | ld_C_D  -- LD C,D (R93)
  | ld_C_E  -- LD C,E (R93)
  | ld_C_H  -- LD C,H (R93)
  | ld_C_L  -- LD C,L (R93)
  | ld_C_A  -- LD C,A (R93)
  | ld_D_B  -- LD D,B (R93)
  | ld_D_C  -- LD D,C (R93)
  | ld_D_D  -- LD D,D (R93)
  | ld_D_E  -- LD D,E (R93)
  | ld_D_H  -- LD D,H (R93)
  | ld_D_L  -- LD D,L (R93)
  | ld_D_A  -- LD D,A (R93)
  | ld_E_B  -- LD E,B (R93)
  | ld_E_C  -- LD E,C (R93)
  | ld_E_D  -- LD E,D (R93)
  | ld_E_E  -- LD E,E (R93)
  | ld_E_H  -- LD E,H (R93)
  | ld_E_L  -- LD E,L (R93)
  | ld_E_A  -- LD E,A (R93)
  | ld_H_B  -- LD H,B (R93)
  | ld_H_C  -- LD H,C (R93)
  | ld_H_D  -- LD H,D (R93)
  | ld_H_E  -- LD H,E (R93)
  | ld_H_H  -- LD H,H (R93)
  | ld_H_L  -- LD H,L (R93)
  | ld_H_A  -- LD H,A (R93)
  | ld_L_B  -- LD L,B (R93)
  | ld_L_C  -- LD L,C (R93)
  | ld_L_D  -- LD L,D (R93)
  | ld_L_E  -- LD L,E (R93)
  | ld_L_H  -- LD L,H (R93)
  | ld_L_L  -- LD L,L (R93)
  | ld_L_A  -- LD L,A (R93)
  | ld_A_B  -- LD A,B (R93)
  | ld_A_C  -- LD A,C (R93)
  | ld_A_D  -- LD A,D (R93)
  | ld_A_E  -- LD A,E (R93)
  | ld_A_H  -- LD A,H (R93)
  | ld_A_L  -- LD A,L (R93)
  | ld_A_A  -- LD A,A (R93)
  | ld_SP_HL  -- LD SP,HL (R94)
  | ld_atHL_d8 (b : Byte)  -- LD (HL),d8 (R95)
  | ld_atA16_SP (addr : Word)  -- LD (a16),SP (R96)
  | ld_A_atBC  -- LD A,(BC) (R97)
  | ld_A_atDE  -- LD A,(DE) (R98)
  | ld_B_atHL  -- LD B,(HL) (R99)
  | ld_C_atHL  -- LD C,(HL) (R99)
  | ld_D_atHL  -- LD D,(HL) (R99)
  | ld_E_atHL  -- LD E,(HL) (R99)
  | ld_H_atHL  -- LD H,(HL) (R99)
  | ld_L_atHL  -- LD L,(HL) (R99)
  | ld_A_atHL  -- LD A,(HL) (R99)
  | ld_A_atHLinc  -- LD A,(HL+) (R100)
  | ld_A_atHLdec  -- LD A,(HL-) (R101)
  | ld_atBC_A  -- LD (BC),A (R102)
  | ld_atDE_A  -- LD (DE),A (R103)
  | ld_atHL_B  -- LD (HL),B (R104)
  | ld_atHL_C  -- LD (HL),C (R104)
  | ld_atHL_D  -- LD (HL),D (R104)
  | ld_atHL_E  -- LD (HL),E (R104)
  | ld_atHL_H  -- LD (HL),H (R104)
  | ld_atHL_L  -- LD (HL),L (R104)
  | ld_atHL_A  -- LD (HL),A (R104)
  | ld_atHLinc_A  -- LD (HL+),A (R105)
  | ld_atHLdec_A  -- LD (HL-),A (R106)
  | xor_B  -- XOR B (R110)
  | xor_C  -- XOR C (R110)
  | xor_D  -- XOR D (R110)
  | xor_E  -- XOR E (R110)
  | xor_H  -- XOR H (R110)
  | xor_L  -- XOR L (R110)
  | xor_A  -- XOR A (R110)
  | jr_NZ_d8 (d : Byte)  -- JR NZ,d8 (R120)
  | jr_NC_d8 (d : Byte)  -- JR NC,d8 (R121)
  /-- `PREFIX CB`, "enter prefixed table" (R85), with "the next byte, which is the prefixed opcode, not data". -/
  | prefixCb (op2 : Byte)
  | bit_0_B  -- BIT 0,B (R115)
  | bit_0_C  -- BIT 0,C (R115)
  | bit_0_D  -- BIT 0,D (R115)
  | bit_0_E  -- BIT 0,E (R115)
  | bit_0_H  -- BIT 0,H (R115)
  | bit_0_L  -- BIT 0,L (R115)
  | bit_0_A  -- BIT 0,A (R115)
  | bit_1_B  -- BIT 1,B (R115)
  | bit_1_C  -- BIT 1,C (R115)
  | bit_1_D  -- BIT 1,D (R115)
  | bit_1_E  -- BIT 1,E (R115)
  | bit_1_H  -- BIT 1,H (R115)
  | bit_1_L  -- BIT 1,L (R115)
  | bit_1_A  -- BIT 1,A (R115)
  | bit_2_B  -- BIT 2,B (R115)
  | bit_2_C  -- BIT 2,C (R115)
  | bit_2_D  -- BIT 2,D (R115)
  | bit_2_E  -- BIT 2,E (R115)
  | bit_2_H  -- BIT 2,H (R115)
  | bit_2_L  -- BIT 2,L (R115)
  | bit_2_A  -- BIT 2,A (R115)
  | bit_3_B  -- BIT 3,B (R115)
  | bit_3_C  -- BIT 3,C (R115)
  | bit_3_D  -- BIT 3,D (R115)
  | bit_3_E  -- BIT 3,E (R115)
  | bit_3_H  -- BIT 3,H (R115)
  | bit_3_L  -- BIT 3,L (R115)
  | bit_3_A  -- BIT 3,A (R115)
  | bit_4_B  -- BIT 4,B (R115)
  | bit_4_C  -- BIT 4,C (R115)
  | bit_4_D  -- BIT 4,D (R115)
  | bit_4_E  -- BIT 4,E (R115)
  | bit_4_H  -- BIT 4,H (R115)
  | bit_4_L  -- BIT 4,L (R115)
  | bit_4_A  -- BIT 4,A (R115)
  | bit_5_B  -- BIT 5,B (R115)
  | bit_5_C  -- BIT 5,C (R115)
  | bit_5_D  -- BIT 5,D (R115)
  | bit_5_E  -- BIT 5,E (R115)
  | bit_5_H  -- BIT 5,H (R115)
  | bit_5_L  -- BIT 5,L (R115)
  | bit_5_A  -- BIT 5,A (R115)
  | bit_6_B  -- BIT 6,B (R115)
  | bit_6_C  -- BIT 6,C (R115)
  | bit_6_D  -- BIT 6,D (R115)
  | bit_6_E  -- BIT 6,E (R115)
  | bit_6_H  -- BIT 6,H (R115)
  | bit_6_L  -- BIT 6,L (R115)
  | bit_6_A  -- BIT 6,A (R115)
  | bit_7_B  -- BIT 7,B (R115)
  | bit_7_C  -- BIT 7,C (R115)
  | bit_7_D  -- BIT 7,D (R115)
  | bit_7_E  -- BIT 7,E (R115)
  | bit_7_H  -- BIT 7,H (R115)
  | bit_7_L  -- BIT 7,L (R115)
  | bit_7_A  -- BIT 7,A (R115)
  /-- Prefixed `NOP` (R86), with the byte after 0xCB: any byte the secondary map leaves unassigned (R69). -/
  | nopCb (op : Byte)
deriving DecidableEq, Repr

end Sys2Proof
end

