-- ==== Sys2Proof/WellFormed.lean ====
section
/-! DEFINITION. Which instruction terms are well formed: the checks that no parameter of the core can change. Whether the maps
selected by `ASSIGNED_G` have the instruction is `Instr.inMap` (Decode.lean). -/

namespace Sys2Proof

/-- A NOP stands for a byte that may be unassigned: never one of the four bytes that RB itself assigns to another
instruction (R67, R73 of 30_encoding.md); a prefixed NOP never for 0x7C. Every operand value of every other instruction is
allowed: the operands are whole bytes (R60). -/
def Instr.wf (i : Instr) : Bool :=
  match i with
  | .nop op   => !tierSPrimary op
  | .nopCb op => !tierSSecondary op
  | _ => true

end Sys2Proof
end

