-- ==== Sys2Proof/Decode.lean ====
section
/-! DEFINITION. The two decode tables (rules R60 to R73 of 30_encoding.md), the decoder, total on any bytes, and the encoder. -/

namespace Sys2Proof

/-! ### The decoder -/

/-- What an opcode byte of the primary table decodes to, by the operand bytes its format has (R60, R61). -/
inductive OpcodeForm where
  /-- Format `OP`: no operand byte. -/
  | op  (i : Instr)
  /-- Formats `OP_D8` and `CB_OP`: one operand byte. -/
  | d8  (mk : Byte → Instr)
  /-- Format `OP_D16`: two operand bytes, the low byte first. -/
  | d16 (mk : Word → Instr)

/-- The primary map with all of tier G assigned: the grid of R71, row by row; a byte that is not named is NOP (R69). -/
def primaryMap (op : Byte) : OpcodeForm :=
  match op.toNat with
  | 0x01 => .d16 .ld_BC_d16
  | 0x02 => .op .ld_atBC_A
  | 0x06 => .d8 .ld_B_d8
  | 0x08 => .d16 .ld_atA16_SP
  | 0x0A => .op .ld_A_atBC
  | 0x0E => .d8 .ld_C_d8
  | 0x11 => .d16 .ld_DE_d16
  | 0x12 => .op .ld_atDE_A
  | 0x16 => .d8 .ld_D_d8
  | 0x1A => .op .ld_A_atDE
  | 0x1E => .d8 .ld_E_d8
  | 0x20 => .d8 .jr_NZ_d8
  | 0x21 => .d16 .ld_HL_d16
  | 0x22 => .op .ld_atHLinc_A
  | 0x26 => .d8 .ld_H_d8
  | 0x2A => .op .ld_A_atHLinc
  | 0x2E => .d8 .ld_L_d8
  | 0x30 => .d8 .jr_NC_d8
  | 0x31 => .d16 .ld_SP_d16
  | 0x32 => .op .ld_atHLdec_A
  | 0x36 => .d8 .ld_atHL_d8
  | 0x3A => .op .ld_A_atHLdec
  | 0x3E => .d8 .ld_A_d8
  | 0x40 => .op .ld_B_B
  | 0x41 => .op .ld_B_C
  | 0x42 => .op .ld_B_D
  | 0x43 => .op .ld_B_E
  | 0x44 => .op .ld_B_H
  | 0x45 => .op .ld_B_L
  | 0x46 => .op .ld_B_atHL
  | 0x47 => .op .ld_B_A
  | 0x48 => .op .ld_C_B
  | 0x49 => .op .ld_C_C
  | 0x4A => .op .ld_C_D
  | 0x4B => .op .ld_C_E
  | 0x4C => .op .ld_C_H
  | 0x4D => .op .ld_C_L
  | 0x4E => .op .ld_C_atHL
  | 0x4F => .op .ld_C_A
  | 0x50 => .op .ld_D_B
  | 0x51 => .op .ld_D_C
  | 0x52 => .op .ld_D_D
  | 0x53 => .op .ld_D_E
  | 0x54 => .op .ld_D_H
  | 0x55 => .op .ld_D_L
  | 0x56 => .op .ld_D_atHL
  | 0x57 => .op .ld_D_A
  | 0x58 => .op .ld_E_B
  | 0x59 => .op .ld_E_C
  | 0x5A => .op .ld_E_D
  | 0x5B => .op .ld_E_E
  | 0x5C => .op .ld_E_H
  | 0x5D => .op .ld_E_L
  | 0x5E => .op .ld_E_atHL
  | 0x5F => .op .ld_E_A
  | 0x60 => .op .ld_H_B
  | 0x61 => .op .ld_H_C
  | 0x62 => .op .ld_H_D
  | 0x63 => .op .ld_H_E
  | 0x64 => .op .ld_H_H
  | 0x65 => .op .ld_H_L
  | 0x66 => .op .ld_H_atHL
  | 0x67 => .op .ld_H_A
  | 0x68 => .op .ld_L_B
  | 0x69 => .op .ld_L_C
  | 0x6A => .op .ld_L_D
  | 0x6B => .op .ld_L_E
  | 0x6C => .op .ld_L_H
  | 0x6D => .op .ld_L_L
  | 0x6E => .op .ld_L_atHL
  | 0x6F => .op .ld_L_A
  | 0x70 => .op .ld_atHL_B
  | 0x71 => .op .ld_atHL_C
  | 0x72 => .op .ld_atHL_D
  | 0x73 => .op .ld_atHL_E
  | 0x74 => .op .ld_atHL_H
  | 0x75 => .op .ld_atHL_L
  | 0x77 => .op .ld_atHL_A
  | 0x78 => .op .ld_A_B
  | 0x79 => .op .ld_A_C
  | 0x7A => .op .ld_A_D
  | 0x7B => .op .ld_A_E
  | 0x7C => .op .ld_A_H
  | 0x7D => .op .ld_A_L
  | 0x7E => .op .ld_A_atHL
  | 0x7F => .op .ld_A_A
  | 0xA8 => .op .xor_B
  | 0xA9 => .op .xor_C
  | 0xAA => .op .xor_D
  | 0xAB => .op .xor_E
  | 0xAC => .op .xor_H
  | 0xAD => .op .xor_L
  | 0xAF => .op .xor_A
  | 0xCB => .d8 .prefixCb
  | 0xF9 => .op .ld_SP_HL
  | _ => .op (.nop op)

/-- `DecodePrimary` of the opcode byte (R65) under the parameters `p`: a byte of tier G left out of `ASSIGNED_G` is NOP (R68),
a byte of tier S never is (R73). -/
def primaryForm (p : Params) (op : Byte) : OpcodeForm :=
  if p.leftOutPrimary.contains op && !tierSPrimary op then .op (.nop op) else primaryMap op

/-- The registers a bit test can name (R115). -/
inductive BitReg where
  | B | C | D | E | H | L | A
deriving DecidableEq, Repr

/-- `PrefixedInstruction`: "its variants are exactly bit-test (with a bit index 0..7 and a register) and no-op" (R66). -/
inductive Prefixed where
  | bit (b : Fin 8) (r : BitReg)
  | nop (op : Byte)
deriving DecidableEq, Repr

/-- The secondary map with all of tier G assigned: the list of R116; a byte that is not named is prefixed NOP (R72). -/
def secondaryMap (op : Byte) : Prefixed :=
  match op.toNat with
  | 0x40 => .bit 0 .B
  | 0x41 => .bit 0 .C
  | 0x42 => .bit 0 .D
  | 0x43 => .bit 0 .E
  | 0x44 => .bit 0 .H
  | 0x45 => .bit 0 .L
  | 0x47 => .bit 0 .A
  | 0x48 => .bit 1 .B
  | 0x49 => .bit 1 .C
  | 0x4A => .bit 1 .D
  | 0x4B => .bit 1 .E
  | 0x4C => .bit 1 .H
  | 0x4D => .bit 1 .L
  | 0x4F => .bit 1 .A
  | 0x50 => .bit 2 .B
  | 0x51 => .bit 2 .C
  | 0x52 => .bit 2 .D
  | 0x53 => .bit 2 .E
  | 0x54 => .bit 2 .H
  | 0x55 => .bit 2 .L
  | 0x57 => .bit 2 .A
  | 0x58 => .bit 3 .B
  | 0x59 => .bit 3 .C
  | 0x5A => .bit 3 .D
  | 0x5B => .bit 3 .E
  | 0x5C => .bit 3 .H
  | 0x5D => .bit 3 .L
  | 0x5F => .bit 3 .A
  | 0x60 => .bit 4 .B
  | 0x61 => .bit 4 .C
  | 0x62 => .bit 4 .D
  | 0x63 => .bit 4 .E
  | 0x64 => .bit 4 .H
  | 0x65 => .bit 4 .L
  | 0x67 => .bit 4 .A
  | 0x68 => .bit 5 .B
  | 0x69 => .bit 5 .C
  | 0x6A => .bit 5 .D
  | 0x6B => .bit 5 .E
  | 0x6C => .bit 5 .H
  | 0x6D => .bit 5 .L
  | 0x6F => .bit 5 .A
  | 0x70 => .bit 6 .B
  | 0x71 => .bit 6 .C
  | 0x72 => .bit 6 .D
  | 0x73 => .bit 6 .E
  | 0x74 => .bit 6 .H
  | 0x75 => .bit 6 .L
  | 0x77 => .bit 6 .A
  | 0x78 => .bit 7 .B
  | 0x79 => .bit 7 .C
  | 0x7A => .bit 7 .D
  | 0x7B => .bit 7 .E
  | 0x7C => .bit 7 .H
  | 0x7D => .bit 7 .L
  | 0x7F => .bit 7 .A
  | _ => .nop op

/-- `DecodeSecondary` (R66) under the parameters `p`. -/
def decodeSecondary (p : Params) (op : Byte) : Prefixed :=
  if p.leftOutSecondary.contains op && !tierSSecondary op then .nop op else secondaryMap op

/-- The instruction a prefixed variant stands for. -/
def Prefixed.toInstr : Prefixed → Instr
  | .bit 0 .B => .bit_0_B
  | .bit 0 .C => .bit_0_C
  | .bit 0 .D => .bit_0_D
  | .bit 0 .E => .bit_0_E
  | .bit 0 .H => .bit_0_H
  | .bit 0 .L => .bit_0_L
  | .bit 0 .A => .bit_0_A
  | .bit 1 .B => .bit_1_B
  | .bit 1 .C => .bit_1_C
  | .bit 1 .D => .bit_1_D
  | .bit 1 .E => .bit_1_E
  | .bit 1 .H => .bit_1_H
  | .bit 1 .L => .bit_1_L
  | .bit 1 .A => .bit_1_A
  | .bit 2 .B => .bit_2_B
  | .bit 2 .C => .bit_2_C
  | .bit 2 .D => .bit_2_D
  | .bit 2 .E => .bit_2_E
  | .bit 2 .H => .bit_2_H
  | .bit 2 .L => .bit_2_L
  | .bit 2 .A => .bit_2_A
  | .bit 3 .B => .bit_3_B
  | .bit 3 .C => .bit_3_C
  | .bit 3 .D => .bit_3_D
  | .bit 3 .E => .bit_3_E
  | .bit 3 .H => .bit_3_H
  | .bit 3 .L => .bit_3_L
  | .bit 3 .A => .bit_3_A
  | .bit 4 .B => .bit_4_B
  | .bit 4 .C => .bit_4_C
  | .bit 4 .D => .bit_4_D
  | .bit 4 .E => .bit_4_E
  | .bit 4 .H => .bit_4_H
  | .bit 4 .L => .bit_4_L
  | .bit 4 .A => .bit_4_A
  | .bit 5 .B => .bit_5_B
  | .bit 5 .C => .bit_5_C
  | .bit 5 .D => .bit_5_D
  | .bit 5 .E => .bit_5_E
  | .bit 5 .H => .bit_5_H
  | .bit 5 .L => .bit_5_L
  | .bit 5 .A => .bit_5_A
  | .bit 6 .B => .bit_6_B
  | .bit 6 .C => .bit_6_C
  | .bit 6 .D => .bit_6_D
  | .bit 6 .E => .bit_6_E
  | .bit 6 .H => .bit_6_H
  | .bit 6 .L => .bit_6_L
  | .bit 6 .A => .bit_6_A
  | .bit 7 .B => .bit_7_B
  | .bit 7 .C => .bit_7_C
  | .bit 7 .D => .bit_7_D
  | .bit 7 .E => .bit_7_E
  | .bit 7 .H => .bit_7_H
  | .bit 7 .L => .bit_7_L
  | .bit 7 .A => .bit_7_A
  | .nop op => .nopCb op

/-- Why a list of bytes holds no instruction. Decoding itself has no failure ("every byte value decodes to *something*", R65):
only a list that ends inside an instruction is rejected. -/
inductive DecodeReject where
  /-- There is no byte at all. -/
  | noOpcode
  /-- The list ends before the last operand byte of this opcode. -/
  | missingOperand (op : Byte)
deriving DecidableEq, Repr

/-- How many operand bytes follow the opcode byte: `k` of R61. -/
def operandCount (p : Params) (op : Byte) : Nat :=
  match primaryForm p op with
  | .op _  => 0
  | .d8 _  => 1
  | .d16 _ => 2

/-- Read the operand bytes a form asks for off the list after the opcode byte `op`; of a 16-bit operand the low byte comes
first (R63). -/
def OpcodeForm.read (op : Byte) : OpcodeForm → List Byte → Except DecodeReject (Instr × List Byte)
  | .op i,   rest => .ok (i, rest)
  | .d8 mk,  b :: rest => .ok (mk b, rest)
  | .d16 mk, lo :: hi :: rest => .ok (mk (joinBytes hi lo), rest)
  | .d8 _,   [] => .error (.missingOperand op)
  | .d16 _,  [] => .error (.missingOperand op)
  | .d16 _,  [_] => .error (.missingOperand op)

/-- `DecodePrimary` with its operand bytes: the instruction and the bytes after it. Byte 0xCB gives `prefixCb` of the byte after
it. -/
def decodePrimary (p : Params) : List Byte → Except DecodeReject (Instr × List Byte)
  | [] => .error .noOpcode
  | op :: bs => (primaryForm p op).read op bs

/-- What a decoded instruction is once the prefix is looked up in the secondary table ("if the row is `PREFIX CB`, index the
`cb` rows by the byte at `pc + 1`", R78). Every other instruction is itself. -/
def resolvePrefix (p : Params) (i : Instr) : Instr :=
  match i with
  | .prefixCb op2 => (decodeSecondary p op2).toInstr
  | _ => i

/-- The whole decoder: both tables. Total on any list of bytes. -/
def decode (p : Params) (bs : List Byte) : Except DecodeReject (Instr × List Byte) :=
  match decodePrimary p bs with
  | .ok (i, rest) => .ok (resolvePrefix p i, rest)
  | .error e => .error e

/-! ### The encoder -/

/-- The two decode tables. -/
inductive OpcodeTable where
  | primary | secondary
deriving DecidableEq, Repr

/-- The table an instruction's opcode byte belongs to. -/
def Instr.table : Instr → OpcodeTable
  | .bit_0_B | .bit_0_C | .bit_0_D | .bit_0_E | .bit_0_H | .bit_0_L | .bit_0_A | .bit_1_B 
  | .bit_1_C | .bit_1_D | .bit_1_E | .bit_1_H | .bit_1_L | .bit_1_A | .bit_2_B | .bit_2_C 
  | .bit_2_D | .bit_2_E | .bit_2_H | .bit_2_L | .bit_2_A | .bit_3_B | .bit_3_C | .bit_3_D 
  | .bit_3_E | .bit_3_H | .bit_3_L | .bit_3_A | .bit_4_B | .bit_4_C | .bit_4_D | .bit_4_E 
  | .bit_4_H | .bit_4_L | .bit_4_A | .bit_5_B | .bit_5_C | .bit_5_D | .bit_5_E | .bit_5_H 
  | .bit_5_L | .bit_5_A | .bit_6_B | .bit_6_C | .bit_6_D | .bit_6_E | .bit_6_H | .bit_6_L 
  | .bit_6_A | .bit_7_B | .bit_7_C | .bit_7_D | .bit_7_E | .bit_7_H | .bit_7_L | .bit_7_A 
  | .nopCb _ => .secondary
  | .nop _ | .ld_BC_d16 _ | .ld_DE_d16 _ | .ld_HL_d16 _ | .ld_SP_d16 _ | .ld_B_d8 _ | .ld_C_d8 _ | .ld_D_d8 _ 
  | .ld_E_d8 _ | .ld_H_d8 _ | .ld_L_d8 _ | .ld_A_d8 _ | .ld_B_B | .ld_B_C | .ld_B_D | .ld_B_E 
  | .ld_B_H | .ld_B_L | .ld_B_A | .ld_C_B | .ld_C_C | .ld_C_D | .ld_C_E | .ld_C_H 
  | .ld_C_L | .ld_C_A | .ld_D_B | .ld_D_C | .ld_D_D | .ld_D_E | .ld_D_H | .ld_D_L 
  | .ld_D_A | .ld_E_B | .ld_E_C | .ld_E_D | .ld_E_E | .ld_E_H | .ld_E_L | .ld_E_A 
  | .ld_H_B | .ld_H_C | .ld_H_D | .ld_H_E | .ld_H_H | .ld_H_L | .ld_H_A | .ld_L_B 
  | .ld_L_C | .ld_L_D | .ld_L_E | .ld_L_H | .ld_L_L | .ld_L_A | .ld_A_B | .ld_A_C 
  | .ld_A_D | .ld_A_E | .ld_A_H | .ld_A_L | .ld_A_A | .ld_SP_HL | .ld_atHL_d8 _ | .ld_atA16_SP _ 
  | .ld_A_atBC | .ld_A_atDE | .ld_B_atHL | .ld_C_atHL | .ld_D_atHL | .ld_E_atHL | .ld_H_atHL | .ld_L_atHL 
  | .ld_A_atHL | .ld_A_atHLinc | .ld_A_atHLdec | .ld_atBC_A | .ld_atDE_A | .ld_atHL_B | .ld_atHL_C | .ld_atHL_D 
  | .ld_atHL_E | .ld_atHL_H | .ld_atHL_L | .ld_atHL_A | .ld_atHLinc_A | .ld_atHLdec_A | .xor_B | .xor_C 
  | .xor_D | .xor_E | .xor_H | .xor_L | .xor_A | .jr_NZ_d8 _ | .jr_NC_d8 _ | .prefixCb _ 
  => .primary

/-- The code of an 8-bit register in an opcode byte: B=0, C=1, D=2, E=3, H=4, L=5, A=7 (R75, R93). -/
def BitReg.code : BitReg → Nat
  | .B => 0 | .C => 1 | .D => 2 | .E => 3 | .H => 4 | .L => 5 | .A => 7

/-- `0x40 + 8*code(r) + code(r')`, the opcode of `LD r,r'` (R93). -/
def opLdReg (r r' : BitReg) : Byte := BitVec.ofNat 8 (0x40 + 8 * r.code + r'.code)

/-- `0x40 + 8*b + code(r)`, the byte after 0xCB of `BIT b,r` (R115). -/
def opBit (b : Nat) (r : BitReg) : Byte := BitVec.ofNat 8 (0x40 + 8 * b + r.code)

/-- The opcode byte of each instruction in its table, from the *Encoding* paragraphs of R84 to R121. -/
def Instr.opcode : Instr → Byte
  | .nop op => op
  | .ld_BC_d16 _ => 0x01
  | .ld_DE_d16 _ => 0x11
  | .ld_HL_d16 _ => 0x21
  | .ld_SP_d16 _ => 0x31
  | .ld_B_d8 _ => 0x06
  | .ld_C_d8 _ => 0x0E
  | .ld_D_d8 _ => 0x16
  | .ld_E_d8 _ => 0x1E
  | .ld_H_d8 _ => 0x26
  | .ld_L_d8 _ => 0x2E
  | .ld_A_d8 _ => 0x3E
  | .ld_B_B => opLdReg .B .B
  | .ld_B_C => opLdReg .B .C
  | .ld_B_D => opLdReg .B .D
  | .ld_B_E => opLdReg .B .E
  | .ld_B_H => opLdReg .B .H
  | .ld_B_L => opLdReg .B .L
  | .ld_B_A => opLdReg .B .A
  | .ld_C_B => opLdReg .C .B
  | .ld_C_C => opLdReg .C .C
  | .ld_C_D => opLdReg .C .D
  | .ld_C_E => opLdReg .C .E
  | .ld_C_H => opLdReg .C .H
  | .ld_C_L => opLdReg .C .L
  | .ld_C_A => opLdReg .C .A
  | .ld_D_B => opLdReg .D .B
  | .ld_D_C => opLdReg .D .C
  | .ld_D_D => opLdReg .D .D
  | .ld_D_E => opLdReg .D .E
  | .ld_D_H => opLdReg .D .H
  | .ld_D_L => opLdReg .D .L
  | .ld_D_A => opLdReg .D .A
  | .ld_E_B => opLdReg .E .B
  | .ld_E_C => opLdReg .E .C
  | .ld_E_D => opLdReg .E .D
  | .ld_E_E => opLdReg .E .E
  | .ld_E_H => opLdReg .E .H
  | .ld_E_L => opLdReg .E .L
  | .ld_E_A => opLdReg .E .A
  | .ld_H_B => opLdReg .H .B
  | .ld_H_C => opLdReg .H .C
  | .ld_H_D => opLdReg .H .D
  | .ld_H_E => opLdReg .H .E
  | .ld_H_H => opLdReg .H .H
  | .ld_H_L => opLdReg .H .L
  | .ld_H_A => opLdReg .H .A
  | .ld_L_B => opLdReg .L .B
  | .ld_L_C => opLdReg .L .C
  | .ld_L_D => opLdReg .L .D
  | .ld_L_E => opLdReg .L .E
  | .ld_L_H => opLdReg .L .H
  | .ld_L_L => opLdReg .L .L
  | .ld_L_A => opLdReg .L .A
  | .ld_A_B => opLdReg .A .B
  | .ld_A_C => opLdReg .A .C
  | .ld_A_D => opLdReg .A .D
  | .ld_A_E => opLdReg .A .E
  | .ld_A_H => opLdReg .A .H
  | .ld_A_L => opLdReg .A .L
  | .ld_A_A => opLdReg .A .A
  | .ld_SP_HL => 0xF9
  | .ld_atHL_d8 _ => 0x36
  | .ld_atA16_SP _ => 0x08
  | .ld_A_atBC => 0x0A
  | .ld_A_atDE => 0x1A
  | .ld_B_atHL => 0x46
  | .ld_C_atHL => 0x4E
  | .ld_D_atHL => 0x56
  | .ld_E_atHL => 0x5E
  | .ld_H_atHL => 0x66
  | .ld_L_atHL => 0x6E
  | .ld_A_atHL => 0x7E
  | .ld_A_atHLinc => 0x2A
  | .ld_A_atHLdec => 0x3A
  | .ld_atBC_A => 0x02
  | .ld_atDE_A => 0x12
  | .ld_atHL_B => 0x70
  | .ld_atHL_C => 0x71
  | .ld_atHL_D => 0x72
  | .ld_atHL_E => 0x73
  | .ld_atHL_H => 0x74
  | .ld_atHL_L => 0x75
  | .ld_atHL_A => 0x77
  | .ld_atHLinc_A => 0x22
  | .ld_atHLdec_A => 0x32
  | .xor_B => 0xA8
  | .xor_C => 0xA9
  | .xor_D => 0xAA
  | .xor_E => 0xAB
  | .xor_H => 0xAC
  | .xor_L => 0xAD
  | .xor_A => 0xAF
  | .jr_NZ_d8 _ => 0x20
  | .jr_NC_d8 _ => 0x30
  | .prefixCb _ => 0xCB
  | .bit_0_B => opBit 0 .B
  | .bit_0_C => opBit 0 .C
  | .bit_0_D => opBit 0 .D
  | .bit_0_E => opBit 0 .E
  | .bit_0_H => opBit 0 .H
  | .bit_0_L => opBit 0 .L
  | .bit_0_A => opBit 0 .A
  | .bit_1_B => opBit 1 .B
  | .bit_1_C => opBit 1 .C
  | .bit_1_D => opBit 1 .D
  | .bit_1_E => opBit 1 .E
  | .bit_1_H => opBit 1 .H
  | .bit_1_L => opBit 1 .L
  | .bit_1_A => opBit 1 .A
  | .bit_2_B => opBit 2 .B
  | .bit_2_C => opBit 2 .C
  | .bit_2_D => opBit 2 .D
  | .bit_2_E => opBit 2 .E
  | .bit_2_H => opBit 2 .H
  | .bit_2_L => opBit 2 .L
  | .bit_2_A => opBit 2 .A
  | .bit_3_B => opBit 3 .B
  | .bit_3_C => opBit 3 .C
  | .bit_3_D => opBit 3 .D
  | .bit_3_E => opBit 3 .E
  | .bit_3_H => opBit 3 .H
  | .bit_3_L => opBit 3 .L
  | .bit_3_A => opBit 3 .A
  | .bit_4_B => opBit 4 .B
  | .bit_4_C => opBit 4 .C
  | .bit_4_D => opBit 4 .D
  | .bit_4_E => opBit 4 .E
  | .bit_4_H => opBit 4 .H
  | .bit_4_L => opBit 4 .L
  | .bit_4_A => opBit 4 .A
  | .bit_5_B => opBit 5 .B
  | .bit_5_C => opBit 5 .C
  | .bit_5_D => opBit 5 .D
  | .bit_5_E => opBit 5 .E
  | .bit_5_H => opBit 5 .H
  | .bit_5_L => opBit 5 .L
  | .bit_5_A => opBit 5 .A
  | .bit_6_B => opBit 6 .B
  | .bit_6_C => opBit 6 .C
  | .bit_6_D => opBit 6 .D
  | .bit_6_E => opBit 6 .E
  | .bit_6_H => opBit 6 .H
  | .bit_6_L => opBit 6 .L
  | .bit_6_A => opBit 6 .A
  | .bit_7_B => opBit 7 .B
  | .bit_7_C => opBit 7 .C
  | .bit_7_D => opBit 7 .D
  | .bit_7_E => opBit 7 .E
  | .bit_7_H => opBit 7 .H
  | .bit_7_L => opBit 7 .L
  | .bit_7_A => opBit 7 .A
  | .nopCb op => op

/-- The operand bytes of each instruction, in the order they stand in memory: of a 16-bit operand the low byte first (R63). -/
def Instr.operands : Instr → List Byte
  | .ld_BC_d16 v => [loByte v, hiByte v]
  | .ld_DE_d16 v => [loByte v, hiByte v]
  | .ld_HL_d16 v => [loByte v, hiByte v]
  | .ld_SP_d16 v => [loByte v, hiByte v]
  | .ld_B_d8 b => [b]
  | .ld_C_d8 b => [b]
  | .ld_D_d8 b => [b]
  | .ld_E_d8 b => [b]
  | .ld_H_d8 b => [b]
  | .ld_L_d8 b => [b]
  | .ld_A_d8 b => [b]
  | .ld_atHL_d8 b => [b]
  | .ld_atA16_SP addr => [loByte addr, hiByte addr]
  | .jr_NZ_d8 d => [d]
  | .jr_NC_d8 d => [d]
  | .prefixCb op2 => [op2]
  | _ => []

/-- The bytes of an instruction at ascending addresses, in the formats of R60. -/
def encode (i : Instr) : List Byte :=
  match i.table with
  | .primary   => i.opcode :: i.operands
  | .secondary => [0xCB, i.opcode]

/-- The length of an instruction in bytes (R60, R61). -/
def Instr.length (i : Instr) : Nat :=
  match i.table with
  | .primary   => 1 + i.operands.length
  | .secondary => 2

/-- The maps that the parameters `p` select have this instruction: a NOP's byte is unassigned there, any other
instruction's opcode byte is assigned (R69, R73). -/
def Instr.inMap (p : Params) (i : Instr) : Bool :=
  match i with
  | .nop op   => !p.assignsPrimary op
  | .nopCb op => !p.assignsSecondary op
  | _ =>
    match i.table with
    | .primary   => p.assignsPrimary i.opcode
    | .secondary => p.assignsSecondary i.opcode

/-! ### The opcode table's numbering of an instruction's bits -/

/-- The first three bytes of the instruction whose bits are `w`, as spec/opcode_table.json numbers them: "the instruction's
first two bytes written as `byte0*256 + byte1`" (R78), so byte 0 is bits 15..8 and byte 1 bits 7..0; a third byte is bits
23..16. Bits from `nbits` up are 0. Three bytes is the longest instruction (R60). -/
def tableBytes (nbits w : Nat) : List Byte :=
  let v := w % 2 ^ nbits
  [BitVec.ofNat 8 (v / 256), BitVec.ofNat 8 v, BitVec.ofNat 8 (v / 65536)]

/-- The instruction the decoder reads, under the default parameters, from an instruction whose bits are `w`. -/
def decodeTableWord (nbits w : Nat) : Option Instr :=
  match decode defaultParams (tableBytes nbits w) with
  | .ok (i, _) => some i
  | .error _ => none

end Sys2Proof
end

