-- ==== Sys2Proof/Machine/State.lean ====
section
/-! DEFINITION. The state of the core (rules R10 to R31 of 10_state.md), the reasons a step stops, and the state after reset. -/

namespace Sys2Proof.Machine

/-- The 13 register names: eight 8-bit registers, four pairs, the stack pointer (R11, R12, R13). -/
inductive RegName where
  | A | F | B | C | D | E | H | L
  | AF | BC | DE | HL
  | SP
deriving DecidableEq, Repr

/-- The four flags of F (R17). -/
inductive FlagName where
  | Z | N | H | C
deriving DecidableEq, Repr

/-- The causes of the one failure class, `Fatal(cause)` (R131 of 60_exceptions.md; names and recorded values are the spec's
decision D6, log entry 14). -/
inductive Fault where
  /-- `OutOfBounds`, code 1: raised by `memRead` (opcode fetch and operand fetch) and by `memWrite` (`LD (a16),SP` with
  a16 = 0xFFFF) for an address above 0xFFFF. Records the address. Safe: the machine stops as the spec says. -/
  | outOfBounds (addr : Nat)
  /-- `AddrRegOverflow`, code 2: raised by `addrStep` (the `(HL+)` forms at 0xFFFF, the `(HL-)` forms at 0x0000) when
  `SE_OVERFLOW = Fault`. Records the register and its value. Safe: an implementation that wraps goes on (D4). -/
  | addrRegOverflow (reg : RegName) (value : Word)
deriving DecidableEq, Repr

/-- Why a step has no meaning. -/
inductive Refusal where
  /-- Raised by `exec` for an instruction without a meaning; no arm raises it. Safe. -/
  | notModelled (mnemonic : String)
  /-- Raised by `step` in a state whose `run` is `Faulted(cause)`: "`Step` is not defined in it" (R132, R154). Safe. -/
  | stepWhileFaulted (cause : Fault)
  /-- The bytes fetched hold no whole instruction. It makes `step` total; no step raises it, because fetch reads exactly the
  operand bytes the opcode asks for (Laws/Step.lean, `step_running`). Safe. -/
  | undecoded (why : DecodeReject)
deriving DecidableEq, Repr

/-- `run`: "`Running` or `Faulted(cause)`" (R10, R28). -/
inductive RunStatus where
  | running
  | faulted (cause : Fault)
deriving DecidableEq, Repr

/-- Memory as the list of the (address, byte) pairs that differ from `memBackground`, addresses rising. -/
abbrev Memory := List Host.Cell

/-- The state of the machine: the four items of R10, and the parameters of R6. -/
structure State where
  /-- The register-file backing store `rf[0..9]` (R10, R11): A F B C D E H L, SP high, SP low. -/
  rf     : Vector Byte 10
  /-- The program counter, "a mathematical natural number that is **not** reduced modulo 65536" (R21, decision D3). -/
  pc     : Nat
  /-- `mem[0..65535]` (R26, R40). -/
  mem    : Memory
  /-- The run status (R28). -/
  run    : RunStatus
  /-- The model's own field, not state of the spec: the parameters `SE_OVERFLOW` and `ASSIGNED_G` of this core (R6), which
  no step changes (log entry 3). -/
  params : Params
deriving DecidableEq, Repr

/-- The machine after construction (R29, R150) with the default parameters of R6: every register byte 0x00, `pc = 0`, memory
at the default `MEM_INIT`, `Running`. -/
def State.reset : State :=
  { rf := Vector.replicate 10 0x00, pc := 0, mem := [], run := .running, params := defaultParams }

end Sys2Proof.Machine
end

