-- ==== Sys2Proof/Machine/Ops.lean ====
section
/-! DEFINITION. The named operations over registers and memory: the register file (rules R11 to R16 of 10_state.md), memory
(R40, R41 of 20_memory.md), the fatal fault (R131, R132 of 60_exceptions.md), operand fetch and the outer advance (R81, R82
of 40_step_nop_prefix.md), construction (R150 of 70_reset_and_hazards.md). -/

namespace Sys2Proof.Machine

/-! ### The register file -/

/-- The backing byte of an 8-bit register, the low byte of a pair and of SP (table of R11; decision D10, log entry 12). -/
def RegName.loIndex : RegName → Fin 10
  | .A => 0 | .F => 1 | .B => 2 | .C => 3 | .D => 4 | .E => 5 | .H => 6 | .L => 7
  | .AF => 1 | .BC => 3 | .DE => 5 | .HL => 7
  | .SP => 9

/-- The high byte of a pair and of SP, "at the lower backing index" (R12, R13); an 8-bit register has none. -/
def RegName.hiIndex : RegName → Option (Fin 10)
  | .A => none | .F => none | .B => none | .C => none | .D => none | .E => none | .H => none | .L => none
  | .AF => some 0 | .BC => some 2 | .DE => some 4 | .HL => some 6
  | .SP => some 8

/-- The backing bytes a register name covers (R16, law 4). -/
def RegName.bytes (n : RegName) : List (Fin 10) :=
  n.hiIndex.toList ++ [n.loIndex]

/-- `rf[i]`. -/
def State.rfByte (s : State) (i : Fin 10) : Byte := s.rf[i]

/-- `rf[i] <- b`. -/
def State.setRfByte (s : State) (i : Fin 10) (b : Byte) : State :=
  { s with rf := s.rf.set i b }

/-- `pc <- v` (R8). -/
def State.setPc (s : State) (v : Nat) : State := { s with pc := v }

/-- The state with another memory. -/
def State.setMem (s : State) (m : Memory) : State := { s with mem := m }

/-- `ReadReg(n)` (R14): an 8-bit register zero-extended, a pair and SP as high byte and low byte. -/
def readReg (n : RegName) (s : State) : Word :=
  match n.hiIndex with
  | none    => zext16 (s.rfByte n.loIndex)
  | some hi => joinBytes (s.rfByte hi) (s.rfByte n.loIndex)

/-- `WriteReg(n, v)` (R15): an 8-bit register keeps the low byte of `v`; a pair and SP are written "high-byte-then-low-byte in
ascending address order". Nothing is masked, F included (R19). -/
def writeReg (n : RegName) (v : Word) (s : State) : State :=
  match n.hiIndex with
  | none    => s.setRfByte n.loIndex (loByte v)
  | some hi => (s.setRfByte hi (hiByte v)).setRfByte n.loIndex (loByte v)

/-! ### Memory -/

/-- The number of memory locations, "exactly 65536" (R26, R40). -/
def memSize : Nat := 0x10000

/-- The byte at an address: the listed one, else `memBackground`. -/
def Memory.read : Memory → Nat → Byte
  | [], _ => memBackground
  | c :: m, a => if c.1 = a then c.2 else Memory.read m a

/-- Store one byte, keeping the canonical form: addresses rising, nothing listed that equals `memBackground`. -/
def Memory.write : Memory → Nat → Byte → Memory
  | [], a, b => if b = memBackground then [] else [(a, b)]
  | c :: m, a, b =>
    if a < c.1 then (if b = memBackground then c :: m else (a, b) :: c :: m)
    else if a = c.1 then (if b = memBackground then m else (a, b) :: m)
    else c :: Memory.write m a b

/-- The canonical form (log entry 19): addresses strictly rising, all of them below 65536, no entry equal to what an unlisted
address reads as. -/
abbrev Memory.wf (m : Memory) : Prop :=
  m.Pairwise (fun c d => c.1 < d.1) ∧ ∀ c ∈ m, c.1 < memSize ∧ c.2 ≠ memBackground

/-- The canonical memory that holds `f a` at the `n` addresses from `addr` on. -/
def Memory.ofFunctionFrom (f : Nat → Byte) : Nat → Nat → Memory
  | _, 0 => []
  | addr, n + 1 =>
    if f addr = memBackground then Memory.ofFunctionFrom f (addr + 1) n
    else (addr, f addr) :: Memory.ofFunctionFrom f (addr + 1) n

/-- The memory that holds `f a` at every address `a` below 65536. -/
def Memory.ofFunction (f : Nat → Byte) : Memory := Memory.ofFunctionFrom f 0 memSize

/-- `MemRead(addr, 1)` (R41). -/
def memRead (addr : Nat) (s : State) : Except Fault Byte :=
  if addr < memSize then .ok (s.mem.read addr) else .error (.outOfBounds addr)

/-- `MemWrite(addr, 1, b)` (R41). -/
def memWrite (addr : Nat) (b : Byte) (s : State) : Except Fault State :=
  if addr < memSize then .ok (s.setMem (s.mem.write addr b)) else .error (.outOfBounds addr)

/-! ### The fatal fault -/

/-- The code of a cause (R131, decision D6). -/
def Fault.code : Fault → Nat
  | .outOfBounds _ => 1
  | .addrRegOverflow _ _ => 2

/-- `raise Fatal(cause)` (R132): the step stops at that point with the cause, the outer advance is not performed, and there is
no next state. `run <- Faulted(cause)` is this outcome itself (log entry 1). There is no entry, handler, saved state or return
(R136, R137). -/
def raiseFatal (cause : Fault) : Host.Outcome State Fault Refusal := .fault cause

/-- `run <- Faulted(cause)` on a state (R28, R132): the terminal status a core is left in; `step` refuses such a state. -/
def State.markFaulted (s : State) (cause : Fault) : State := { s with run := .faulted cause }

/-- The outcome of a handler that completes in a state or raises a fault. -/
def finish (r : Except Fault State) : Host.Outcome State Fault Refusal :=
  match r with
  | .ok t => .next t
  | .error cause => raiseFatal cause

/-! ### Operand fetch and the outer advance -/

/-- `FetchOperand()` (R82): `pc <- pc + 1; return MemRead(pc, 1)`. -/
def fetchOperand (s : State) : Except Fault (Byte × State) := do
  let t := s.setPc (s.pc + 1)
  let b ← memRead t.pc t
  return (b, t)

/-- `k` operand bytes, one after another. -/
def fetchOperands : Nat → State → Except Fault (List Byte × State)
  | 0, s => return ([], s)
  | k + 1, s => do
    let (b, t) ← fetchOperand s
    let (bs, u) ← fetchOperands k t
    return (b :: bs, u)

/-- The bytes of the instruction at `pc`, in ascending address order (R43, R46): the opcode byte, then the operand bytes of its
category (R61). Afterwards `pc` is the address of the last byte read (R82). -/
def fetchInstr (s : State) : Except Fault (List Byte × State) := do
  let op ← memRead s.pc s
  let (bs, t) ← fetchOperands (operandCount s.params op) s
  return (op :: bs, t)

/-- The outer advance, `pc <- pc + 1` after the handler; not performed when it raised a fault (R81). -/
def outerAdvance (o : Host.Outcome State Fault Refusal) : Host.Outcome State Fault Refusal :=
  match o with
  | .next t => .next (t.setPc (t.pc + 1))
  | .fault cause => .fault cause
  | .refused why => .refused why

/-! ### Construction and loading -/

/-- Construction of a core (R150) with parameters `p` and the memory image `memInit`, the parameter `MEM_INIT` (R6, R153). -/
def State.construct (p : Params) (memInit : Nat → Byte) : State :=
  { rf := Vector.replicate 10 0x00, pc := 0, mem := Memory.ofFunction memInit, run := .running, params := p }

/-- Place bytes at `addr`, `addr + 1`, …; what would lie above 0xFFFF is not placed. -/
def Memory.place (m : Memory) : Nat → List Byte → Memory
  | _, [] => m
  | addr, b :: bs => Memory.place (if addr < memSize then m.write addr b else m) (addr + 1) bs

end Sys2Proof.Machine
end

