-- ==== Sys2Proof/Machine/Flags.lean ====
section
/-! DEFINITION. The flags of F and the two flag computations of the core (rules R17 to R19 and R30 of 10_state.md, R110 of
42_xor.md, R115 of 43_bit.md). -/

namespace Sys2Proof.Machine

/-- "bit(Z)=7, bit(N)=6, bit(H)=5, bit(C)=4" (R17, R18). -/
def FlagName.bitIndex : FlagName → Nat
  | .Z => 7 | .N => 6 | .H => 5 | .C => 4

/-- `flag[X]` (R18). -/
def getFlag (x : FlagName) (s : State) : Bool :=
  (s.rfByte RegName.F.loIndex).getLsbD x.bitIndex

/-- `(F & ~(1 << bit)) | (b << bit)` (R18). -/
def setBit (f : Byte) (i : Nat) (b : Bool) : Byte :=
  (f &&& ~~~((1 : Byte) <<< i)) ||| ((if b then 1 else 0 : Byte) <<< i)

/-- `flag[X] <- b` (R18). -/
def setFlag (x : FlagName) (b : Bool) (s : State) : State :=
  s.setRfByte RegName.F.loIndex (setBit (s.rfByte RegName.F.loIndex) x.bitIndex b)

/-- `reg8[F] <- 0x00`: "the entire flags register, all eight bits" (R110, decision D11, log entry 13). -/
def clearFlags (s : State) : State :=
  s.setRfByte RegName.F.loIndex 0x00

/-- The flags of `XOR r` (R110): F cleared "first", then "the Zero flag if and only if the result is zero". -/
def xorFlags (res : Byte) (s : State) : State :=
  setFlag .Z (res == 0x00) (clearFlags s)

/-- The flags of `BIT b,r` (R115): Z the negation of the tested bit, N cleared, H set, C and F[3:0] not written. -/
def bitFlags (tested : Bool) (s : State) : State :=
  setFlag .H true (setFlag .N false (setFlag .Z (!tested) s))

end Sys2Proof.Machine
end

