-- ==== Sys2Proof/Machine/Operands.lean ====
section
/-! DEFINITION. The operand forms: register, register-held address with and without side effect, absolute address, immediate
(rules R63, R64, R74 of 30_encoding.md, R107, R108 of 41_loads.md, R122 of 44_jr.md). Every form is defined for all 13
register names (R108, decision D14). -/

namespace Sys2Proof.Machine

/-- The side effect of an address register (R9): `(HL+)` or `(HL-)`. -/
inductive StepDir where
  | increment | decrement
deriving DecidableEq, Repr

/-- The memory address an address register holds; an 8-bit register addresses 0x0000..0x00FF (R108). -/
def regAddress (n : RegName) (s : State) : Nat := (readReg n s).toNat

/-- The memory address of an absolute operand a16 (R63, R96). -/
def absAddress (a16 : Word) : Nat := a16.toNat

/-- "zero-extend to 16 bits": an immediate byte or a byte of memory as data (R64, R97). -/
def dataByte (b : Byte) : Word := zext16 b

/-- The byte of a register operand stored to memory: "the low byte of the source register's value" (R102). -/
def storedByte (n : RegName) (s : State) : Byte := loByte (readReg n s)

/-- Bit `b` of a register operand (R115): `ReadReg(r)[b]`. -/
def regBit (b : Fin 8) (r : RegName) (s : State) : Bool := (readReg r s).getLsbD b.val

/-- `pc + d - 1` with the distance byte `d` "as an UNSIGNED number 0..255" (R74, R122), evaluated as a whole (R123, decision D7,
log entry 9): after an operand fetch `pc ≥ 1`, so the subtraction is exact. -/
def jumpTarget (pc : Nat) (d : Byte) : Nat := pc + d.toNat - 1

/-- `AddrStep(n, dir)` (R107): in range the exact sum, out of range what `SE_OVERFLOW` says (decision D4, log entry 5). -/
def addrStep (n : RegName) (dir : StepDir) (s : State) : Except Fault State :=
  let v := readReg n s
  let inRange : Bool := match dir with
    | .increment => v.toNat + 1 ≤ 0xFFFF
    | .decrement => 1 ≤ v.toNat
  let w : Word := match dir with
    | .increment => v + 1
    | .decrement => v - 1
  if inRange then .ok (writeReg n w s)
  else match s.params.seOverflow with
    | .wrap  => .ok (writeReg n w s)
    | .fault => .error (.addrRegOverflow n v)

end Sys2Proof.Machine
end

