-- ==== Sys2Proof/Machine/Bit.lean ====
section
/-! DEFINITION. The bit test (rules R115, R116 of 43_bit.md). The handler starts where the one of the prefix has fetched byte 1. -/

namespace Sys2Proof.Machine

/-- `ExecutePrefixed(BIT b, r)` (R115). -/
def bitTest (b : Fin 8) (r : RegName) (s : State) : Except Fault State :=
  .ok (bitFlags (regBit b r s) s)

/-- `BIT 0,B` (R115). -/
def execBit_0_B (s : State) : Host.Outcome State Fault Refusal := finish (bitTest 0 .B s)

/-- `BIT 0,C` (R115). -/
def execBit_0_C (s : State) : Host.Outcome State Fault Refusal := finish (bitTest 0 .C s)

/-- `BIT 0,D` (R115). -/
def execBit_0_D (s : State) : Host.Outcome State Fault Refusal := finish (bitTest 0 .D s)

/-- `BIT 0,E` (R115). -/
def execBit_0_E (s : State) : Host.Outcome State Fault Refusal := finish (bitTest 0 .E s)

/-- `BIT 0,H` (R115). -/
def execBit_0_H (s : State) : Host.Outcome State Fault Refusal := finish (bitTest 0 .H s)

/-- `BIT 0,L` (R115). -/
def execBit_0_L (s : State) : Host.Outcome State Fault Refusal := finish (bitTest 0 .L s)

/-- `BIT 0,A` (R115). -/
def execBit_0_A (s : State) : Host.Outcome State Fault Refusal := finish (bitTest 0 .A s)

/-- `BIT 1,B` (R115). -/
def execBit_1_B (s : State) : Host.Outcome State Fault Refusal := finish (bitTest 1 .B s)

/-- `BIT 1,C` (R115). -/
def execBit_1_C (s : State) : Host.Outcome State Fault Refusal := finish (bitTest 1 .C s)

/-- `BIT 1,D` (R115). -/
def execBit_1_D (s : State) : Host.Outcome State Fault Refusal := finish (bitTest 1 .D s)

/-- `BIT 1,E` (R115). -/
def execBit_1_E (s : State) : Host.Outcome State Fault Refusal := finish (bitTest 1 .E s)

/-- `BIT 1,H` (R115). -/
def execBit_1_H (s : State) : Host.Outcome State Fault Refusal := finish (bitTest 1 .H s)

/-- `BIT 1,L` (R115). -/
def execBit_1_L (s : State) : Host.Outcome State Fault Refusal := finish (bitTest 1 .L s)

/-- `BIT 1,A` (R115). -/
def execBit_1_A (s : State) : Host.Outcome State Fault Refusal := finish (bitTest 1 .A s)

/-- `BIT 2,B` (R115). -/
def execBit_2_B (s : State) : Host.Outcome State Fault Refusal := finish (bitTest 2 .B s)

/-- `BIT 2,C` (R115). -/
def execBit_2_C (s : State) : Host.Outcome State Fault Refusal := finish (bitTest 2 .C s)

/-- `BIT 2,D` (R115). -/
def execBit_2_D (s : State) : Host.Outcome State Fault Refusal := finish (bitTest 2 .D s)

/-- `BIT 2,E` (R115). -/
def execBit_2_E (s : State) : Host.Outcome State Fault Refusal := finish (bitTest 2 .E s)

/-- `BIT 2,H` (R115). -/
def execBit_2_H (s : State) : Host.Outcome State Fault Refusal := finish (bitTest 2 .H s)

/-- `BIT 2,L` (R115). -/
def execBit_2_L (s : State) : Host.Outcome State Fault Refusal := finish (bitTest 2 .L s)

/-- `BIT 2,A` (R115). -/
def execBit_2_A (s : State) : Host.Outcome State Fault Refusal := finish (bitTest 2 .A s)

/-- `BIT 3,B` (R115). -/
def execBit_3_B (s : State) : Host.Outcome State Fault Refusal := finish (bitTest 3 .B s)

/-- `BIT 3,C` (R115). -/
def execBit_3_C (s : State) : Host.Outcome State Fault Refusal := finish (bitTest 3 .C s)

/-- `BIT 3,D` (R115). -/
def execBit_3_D (s : State) : Host.Outcome State Fault Refusal := finish (bitTest 3 .D s)

/-- `BIT 3,E` (R115). -/
def execBit_3_E (s : State) : Host.Outcome State Fault Refusal := finish (bitTest 3 .E s)

/-- `BIT 3,H` (R115). -/
def execBit_3_H (s : State) : Host.Outcome State Fault Refusal := finish (bitTest 3 .H s)

/-- `BIT 3,L` (R115). -/
def execBit_3_L (s : State) : Host.Outcome State Fault Refusal := finish (bitTest 3 .L s)

/-- `BIT 3,A` (R115). -/
def execBit_3_A (s : State) : Host.Outcome State Fault Refusal := finish (bitTest 3 .A s)

/-- `BIT 4,B` (R115). -/
def execBit_4_B (s : State) : Host.Outcome State Fault Refusal := finish (bitTest 4 .B s)

/-- `BIT 4,C` (R115). -/
def execBit_4_C (s : State) : Host.Outcome State Fault Refusal := finish (bitTest 4 .C s)

/-- `BIT 4,D` (R115). -/
def execBit_4_D (s : State) : Host.Outcome State Fault Refusal := finish (bitTest 4 .D s)

/-- `BIT 4,E` (R115). -/
def execBit_4_E (s : State) : Host.Outcome State Fault Refusal := finish (bitTest 4 .E s)

/-- `BIT 4,H` (R115). -/
def execBit_4_H (s : State) : Host.Outcome State Fault Refusal := finish (bitTest 4 .H s)

/-- `BIT 4,L` (R115). -/
def execBit_4_L (s : State) : Host.Outcome State Fault Refusal := finish (bitTest 4 .L s)

/-- `BIT 4,A` (R115). -/
def execBit_4_A (s : State) : Host.Outcome State Fault Refusal := finish (bitTest 4 .A s)

/-- `BIT 5,B` (R115). -/
def execBit_5_B (s : State) : Host.Outcome State Fault Refusal := finish (bitTest 5 .B s)

/-- `BIT 5,C` (R115). -/
def execBit_5_C (s : State) : Host.Outcome State Fault Refusal := finish (bitTest 5 .C s)

/-- `BIT 5,D` (R115). -/
def execBit_5_D (s : State) : Host.Outcome State Fault Refusal := finish (bitTest 5 .D s)

/-- `BIT 5,E` (R115). -/
def execBit_5_E (s : State) : Host.Outcome State Fault Refusal := finish (bitTest 5 .E s)

/-- `BIT 5,H` (R115). -/
def execBit_5_H (s : State) : Host.Outcome State Fault Refusal := finish (bitTest 5 .H s)

/-- `BIT 5,L` (R115). -/
def execBit_5_L (s : State) : Host.Outcome State Fault Refusal := finish (bitTest 5 .L s)

/-- `BIT 5,A` (R115). -/
def execBit_5_A (s : State) : Host.Outcome State Fault Refusal := finish (bitTest 5 .A s)

/-- `BIT 6,B` (R115). -/
def execBit_6_B (s : State) : Host.Outcome State Fault Refusal := finish (bitTest 6 .B s)

/-- `BIT 6,C` (R115). -/
def execBit_6_C (s : State) : Host.Outcome State Fault Refusal := finish (bitTest 6 .C s)

/-- `BIT 6,D` (R115). -/
def execBit_6_D (s : State) : Host.Outcome State Fault Refusal := finish (bitTest 6 .D s)

/-- `BIT 6,E` (R115). -/
def execBit_6_E (s : State) : Host.Outcome State Fault Refusal := finish (bitTest 6 .E s)

/-- `BIT 6,H` (R115). -/
def execBit_6_H (s : State) : Host.Outcome State Fault Refusal := finish (bitTest 6 .H s)

/-- `BIT 6,L` (R115). -/
def execBit_6_L (s : State) : Host.Outcome State Fault Refusal := finish (bitTest 6 .L s)

/-- `BIT 6,A` (R115). -/
def execBit_6_A (s : State) : Host.Outcome State Fault Refusal := finish (bitTest 6 .A s)

/-- `BIT 7,B` (R115). -/
def execBit_7_B (s : State) : Host.Outcome State Fault Refusal := finish (bitTest 7 .B s)

/-- `BIT 7,C` (R115). -/
def execBit_7_C (s : State) : Host.Outcome State Fault Refusal := finish (bitTest 7 .C s)

/-- `BIT 7,D` (R115). -/
def execBit_7_D (s : State) : Host.Outcome State Fault Refusal := finish (bitTest 7 .D s)

/-- `BIT 7,E` (R115). -/
def execBit_7_E (s : State) : Host.Outcome State Fault Refusal := finish (bitTest 7 .E s)

/-- `BIT 7,H` (R115). -/
def execBit_7_H (s : State) : Host.Outcome State Fault Refusal := finish (bitTest 7 .H s)

/-- `BIT 7,L` (R115). -/
def execBit_7_L (s : State) : Host.Outcome State Fault Refusal := finish (bitTest 7 .L s)

/-- `BIT 7,A` (R115). -/
def execBit_7_A (s : State) : Host.Outcome State Fault Refusal := finish (bitTest 7 .A s)

end Sys2Proof.Machine
end

