-- ==== Sys2Proof/Machine/Jump.lean ====
section
/-! DEFINITION. The relative conditional jump (rules R120 to R124 of 44_jr.md). -/

namespace Sys2Proof.Machine

/-- `Execute(JR flag X)` after its operand fetch (R122): "taken when the named flag is currently clear". -/
def jumpIfClear (x : FlagName) (d : Byte) (s : State) : Except Fault State :=
  if getFlag x s = false then .ok (s.setPc (jumpTarget s.pc d)) else .ok s

/-- `JR NZ,d8` (R120). -/
def execJr_NZ_d8 (d : Byte) (s : State) : Host.Outcome State Fault Refusal := finish (jumpIfClear .Z d s)

/-- `JR NC,d8` (R121). -/
def execJr_NC_d8 (d : Byte) (s : State) : Host.Outcome State Fault Refusal := finish (jumpIfClear .C d s)

end Sys2Proof.Machine
end

