-- ==== Sys2Proof/Machine/Load.lean ====
section
/-! DEFINITION. The load instructions (rules R90 to R108 of 41_loads.md): the nine load categories over any register names
(R108), then one meaning per instruction. Operand bytes were fetched before the handler's effects (R82, R53); the outer advance
follows in `step` (R81). No load reads or writes a flag (R90). -/

namespace Sys2Proof.Machine

/-- Load, immediate 16-bit into register (R91). -/
def loadImm16 (dst : RegName) (v : Word) (s : State) : Except Fault State :=
  .ok (writeReg dst v s)

/-- Load, immediate 8-bit into register (R92). -/
def loadImm8 (dst : RegName) (b : Byte) (s : State) : Except Fault State :=
  .ok (writeReg dst (dataByte b) s)

/-- Load, register to register (R93, R94): "copy the full 16-bit read of the source register into the destination register". -/
def loadReg (dst src : RegName) (s : State) : Except Fault State :=
  .ok (writeReg dst (readReg src s) s)

/-- Load, immediate 8-bit to memory at register-held address (R95). -/
def storeImm8 (addr : RegName) (b : Byte) (s : State) : Except Fault State :=
  memWrite (regAddress addr s) b s

/-- Load, Stack Pointer to memory (R96): "the low byte at the address and the high byte at address+1", the second address not
wrapped (decision D8, log entry 10). -/
def storeSp (a16 : Word) (s : State) : Except Fault State := do
  let v := readReg .SP s
  let t ← memWrite (absAddress a16) (loByte v) s
  memWrite (absAddress a16 + 1) (hiByte v) t

/-- Load, from memory, plain (R97, R98, R99): the address is "taken before the destination is written". -/
def loadMem (dst addr : RegName) (s : State) : Except Fault State := do
  let b ← memRead (regAddress addr s) s
  return writeReg dst (dataByte b) s

/-- Load, from memory with side effect (R100, R101), "into the Accumulator register specifically". -/
def loadMemStep (addr : RegName) (dir : StepDir) (s : State) : Except Fault State := do
  let t ← loadMem .A addr s
  addrStep addr dir t

/-- Load, to memory, plain (R102, R103, R104). -/
def storeMem (addr src : RegName) (s : State) : Except Fault State :=
  memWrite (regAddress addr s) (storedByte src s) s

/-- Load, to memory with side effect (R105, R106), of the Accumulator. -/
def storeMemStep (addr : RegName) (dir : StepDir) (s : State) : Except Fault State := do
  let t ← storeMem addr .A s
  addrStep addr dir t

/-- `LD BC,d16` (R91). -/
def execLd_BC_d16 (v : Word) (s : State) : Host.Outcome State Fault Refusal := finish (loadImm16 .BC v s)

/-- `LD DE,d16` (R91). -/
def execLd_DE_d16 (v : Word) (s : State) : Host.Outcome State Fault Refusal := finish (loadImm16 .DE v s)

/-- `LD HL,d16` (R91). -/
def execLd_HL_d16 (v : Word) (s : State) : Host.Outcome State Fault Refusal := finish (loadImm16 .HL v s)

/-- `LD SP,d16` (R91). -/
def execLd_SP_d16 (v : Word) (s : State) : Host.Outcome State Fault Refusal := finish (loadImm16 .SP v s)

/-- `LD B,d8` (R92). -/
def execLd_B_d8 (b : Byte) (s : State) : Host.Outcome State Fault Refusal := finish (loadImm8 .B b s)

/-- `LD C,d8` (R92). -/
def execLd_C_d8 (b : Byte) (s : State) : Host.Outcome State Fault Refusal := finish (loadImm8 .C b s)

/-- `LD D,d8` (R92). -/
def execLd_D_d8 (b : Byte) (s : State) : Host.Outcome State Fault Refusal := finish (loadImm8 .D b s)

/-- `LD E,d8` (R92). -/
def execLd_E_d8 (b : Byte) (s : State) : Host.Outcome State Fault Refusal := finish (loadImm8 .E b s)

/-- `LD H,d8` (R92). -/
def execLd_H_d8 (b : Byte) (s : State) : Host.Outcome State Fault Refusal := finish (loadImm8 .H b s)

/-- `LD L,d8` (R92). -/
def execLd_L_d8 (b : Byte) (s : State) : Host.Outcome State Fault Refusal := finish (loadImm8 .L b s)

/-- `LD A,d8` (R92). -/
def execLd_A_d8 (b : Byte) (s : State) : Host.Outcome State Fault Refusal := finish (loadImm8 .A b s)

/-- `LD B,B` (R93). -/
def execLd_B_B (s : State) : Host.Outcome State Fault Refusal := finish (loadReg .B .B s)

/-- `LD B,C` (R93). -/
def execLd_B_C (s : State) : Host.Outcome State Fault Refusal := finish (loadReg .B .C s)

/-- `LD B,D` (R93). -/
def execLd_B_D (s : State) : Host.Outcome State Fault Refusal := finish (loadReg .B .D s)

/-- `LD B,E` (R93). -/
def execLd_B_E (s : State) : Host.Outcome State Fault Refusal := finish (loadReg .B .E s)

/-- `LD B,H` (R93). -/
def execLd_B_H (s : State) : Host.Outcome State Fault Refusal := finish (loadReg .B .H s)

/-- `LD B,L` (R93). -/
def execLd_B_L (s : State) : Host.Outcome State Fault Refusal := finish (loadReg .B .L s)

/-- `LD B,A` (R93). -/
def execLd_B_A (s : State) : Host.Outcome State Fault Refusal := finish (loadReg .B .A s)

/-- `LD C,B` (R93). -/
def execLd_C_B (s : State) : Host.Outcome State Fault Refusal := finish (loadReg .C .B s)

/-- `LD C,C` (R93). -/
def execLd_C_C (s : State) : Host.Outcome State Fault Refusal := finish (loadReg .C .C s)

/-- `LD C,D` (R93). -/
def execLd_C_D (s : State) : Host.Outcome State Fault Refusal := finish (loadReg .C .D s)

/-- `LD C,E` (R93). -/
def execLd_C_E (s : State) : Host.Outcome State Fault Refusal := finish (loadReg .C .E s)

/-- `LD C,H` (R93). -/
def execLd_C_H (s : State) : Host.Outcome State Fault Refusal := finish (loadReg .C .H s)

/-- `LD C,L` (R93). -/
def execLd_C_L (s : State) : Host.Outcome State Fault Refusal := finish (loadReg .C .L s)

/-- `LD C,A` (R93). -/
def execLd_C_A (s : State) : Host.Outcome State Fault Refusal := finish (loadReg .C .A s)

/-- `LD D,B` (R93). -/
def execLd_D_B (s : State) : Host.Outcome State Fault Refusal := finish (loadReg .D .B s)

/-- `LD D,C` (R93). -/
def execLd_D_C (s : State) : Host.Outcome State Fault Refusal := finish (loadReg .D .C s)

/-- `LD D,D` (R93). -/
def execLd_D_D (s : State) : Host.Outcome State Fault Refusal := finish (loadReg .D .D s)

/-- `LD D,E` (R93). -/
def execLd_D_E (s : State) : Host.Outcome State Fault Refusal := finish (loadReg .D .E s)

/-- `LD D,H` (R93). -/
def execLd_D_H (s : State) : Host.Outcome State Fault Refusal := finish (loadReg .D .H s)

/-- `LD D,L` (R93). -/
def execLd_D_L (s : State) : Host.Outcome State Fault Refusal := finish (loadReg .D .L s)

/-- `LD D,A` (R93). -/
def execLd_D_A (s : State) : Host.Outcome State Fault Refusal := finish (loadReg .D .A s)

/-- `LD E,B` (R93). -/
def execLd_E_B (s : State) : Host.Outcome State Fault Refusal := finish (loadReg .E .B s)

/-- `LD E,C` (R93). -/
def execLd_E_C (s : State) : Host.Outcome State Fault Refusal := finish (loadReg .E .C s)

/-- `LD E,D` (R93). -/
def execLd_E_D (s : State) : Host.Outcome State Fault Refusal := finish (loadReg .E .D s)

/-- `LD E,E` (R93). -/
def execLd_E_E (s : State) : Host.Outcome State Fault Refusal := finish (loadReg .E .E s)

/-- `LD E,H` (R93). -/
def execLd_E_H (s : State) : Host.Outcome State Fault Refusal := finish (loadReg .E .H s)

/-- `LD E,L` (R93). -/
def execLd_E_L (s : State) : Host.Outcome State Fault Refusal := finish (loadReg .E .L s)

/-- `LD E,A` (R93). -/
def execLd_E_A (s : State) : Host.Outcome State Fault Refusal := finish (loadReg .E .A s)

/-- `LD H,B` (R93). -/
def execLd_H_B (s : State) : Host.Outcome State Fault Refusal := finish (loadReg .H .B s)

/-- `LD H,C` (R93). -/
def execLd_H_C (s : State) : Host.Outcome State Fault Refusal := finish (loadReg .H .C s)

/-- `LD H,D` (R93). -/
def execLd_H_D (s : State) : Host.Outcome State Fault Refusal := finish (loadReg .H .D s)

/-- `LD H,E` (R93). -/
def execLd_H_E (s : State) : Host.Outcome State Fault Refusal := finish (loadReg .H .E s)

/-- `LD H,H` (R93). -/
def execLd_H_H (s : State) : Host.Outcome State Fault Refusal := finish (loadReg .H .H s)

/-- `LD H,L` (R93). -/
def execLd_H_L (s : State) : Host.Outcome State Fault Refusal := finish (loadReg .H .L s)

/-- `LD H,A` (R93). -/
def execLd_H_A (s : State) : Host.Outcome State Fault Refusal := finish (loadReg .H .A s)

/-- `LD L,B` (R93). -/
def execLd_L_B (s : State) : Host.Outcome State Fault Refusal := finish (loadReg .L .B s)

/-- `LD L,C` (R93). -/
def execLd_L_C (s : State) : Host.Outcome State Fault Refusal := finish (loadReg .L .C s)

/-- `LD L,D` (R93). -/
def execLd_L_D (s : State) : Host.Outcome State Fault Refusal := finish (loadReg .L .D s)

/-- `LD L,E` (R93). -/
def execLd_L_E (s : State) : Host.Outcome State Fault Refusal := finish (loadReg .L .E s)

/-- `LD L,H` (R93). -/
def execLd_L_H (s : State) : Host.Outcome State Fault Refusal := finish (loadReg .L .H s)

/-- `LD L,L` (R93). -/
def execLd_L_L (s : State) : Host.Outcome State Fault Refusal := finish (loadReg .L .L s)

/-- `LD L,A` (R93). -/
def execLd_L_A (s : State) : Host.Outcome State Fault Refusal := finish (loadReg .L .A s)

/-- `LD A,B` (R93). -/
def execLd_A_B (s : State) : Host.Outcome State Fault Refusal := finish (loadReg .A .B s)

/-- `LD A,C` (R93). -/
def execLd_A_C (s : State) : Host.Outcome State Fault Refusal := finish (loadReg .A .C s)

/-- `LD A,D` (R93). -/
def execLd_A_D (s : State) : Host.Outcome State Fault Refusal := finish (loadReg .A .D s)

/-- `LD A,E` (R93). -/
def execLd_A_E (s : State) : Host.Outcome State Fault Refusal := finish (loadReg .A .E s)

/-- `LD A,H` (R93). -/
def execLd_A_H (s : State) : Host.Outcome State Fault Refusal := finish (loadReg .A .H s)

/-- `LD A,L` (R93). -/
def execLd_A_L (s : State) : Host.Outcome State Fault Refusal := finish (loadReg .A .L s)

/-- `LD A,A` (R93). -/
def execLd_A_A (s : State) : Host.Outcome State Fault Refusal := finish (loadReg .A .A s)

/-- `LD SP,HL` (R94). -/
def execLd_SP_HL (s : State) : Host.Outcome State Fault Refusal := finish (loadReg .SP .HL s)

/-- `LD (HL),d8` (R95). -/
def execLd_atHL_d8 (b : Byte) (s : State) : Host.Outcome State Fault Refusal := finish (storeImm8 .HL b s)

/-- `LD (a16),SP` (R96). -/
def execLd_atA16_SP (addr : Word) (s : State) : Host.Outcome State Fault Refusal := finish (storeSp addr s)

/-- `LD A,(BC)` (R97). -/
def execLd_A_atBC (s : State) : Host.Outcome State Fault Refusal := finish (loadMem .A .BC s)

/-- `LD A,(DE)` (R98). -/
def execLd_A_atDE (s : State) : Host.Outcome State Fault Refusal := finish (loadMem .A .DE s)

/-- `LD B,(HL)` (R99). -/
def execLd_B_atHL (s : State) : Host.Outcome State Fault Refusal := finish (loadMem .B .HL s)

/-- `LD C,(HL)` (R99). -/
def execLd_C_atHL (s : State) : Host.Outcome State Fault Refusal := finish (loadMem .C .HL s)

/-- `LD D,(HL)` (R99). -/
def execLd_D_atHL (s : State) : Host.Outcome State Fault Refusal := finish (loadMem .D .HL s)

/-- `LD E,(HL)` (R99). -/
def execLd_E_atHL (s : State) : Host.Outcome State Fault Refusal := finish (loadMem .E .HL s)

/-- `LD H,(HL)` (R99). -/
def execLd_H_atHL (s : State) : Host.Outcome State Fault Refusal := finish (loadMem .H .HL s)

/-- `LD L,(HL)` (R99). -/
def execLd_L_atHL (s : State) : Host.Outcome State Fault Refusal := finish (loadMem .L .HL s)

/-- `LD A,(HL)` (R99). -/
def execLd_A_atHL (s : State) : Host.Outcome State Fault Refusal := finish (loadMem .A .HL s)

/-- `LD A,(HL+)` (R100). -/
def execLd_A_atHLinc (s : State) : Host.Outcome State Fault Refusal := finish (loadMemStep .HL .increment s)

/-- `LD A,(HL-)` (R101). -/
def execLd_A_atHLdec (s : State) : Host.Outcome State Fault Refusal := finish (loadMemStep .HL .decrement s)

/-- `LD (BC),A` (R102). -/
def execLd_atBC_A (s : State) : Host.Outcome State Fault Refusal := finish (storeMem .BC .A s)

/-- `LD (DE),A` (R103). -/
def execLd_atDE_A (s : State) : Host.Outcome State Fault Refusal := finish (storeMem .DE .A s)

/-- `LD (HL),B` (R104). -/
def execLd_atHL_B (s : State) : Host.Outcome State Fault Refusal := finish (storeMem .HL .B s)

/-- `LD (HL),C` (R104). -/
def execLd_atHL_C (s : State) : Host.Outcome State Fault Refusal := finish (storeMem .HL .C s)

/-- `LD (HL),D` (R104). -/
def execLd_atHL_D (s : State) : Host.Outcome State Fault Refusal := finish (storeMem .HL .D s)

/-- `LD (HL),E` (R104). -/
def execLd_atHL_E (s : State) : Host.Outcome State Fault Refusal := finish (storeMem .HL .E s)

/-- `LD (HL),H` (R104). -/
def execLd_atHL_H (s : State) : Host.Outcome State Fault Refusal := finish (storeMem .HL .H s)

/-- `LD (HL),L` (R104). -/
def execLd_atHL_L (s : State) : Host.Outcome State Fault Refusal := finish (storeMem .HL .L s)

/-- `LD (HL),A` (R104). -/
def execLd_atHL_A (s : State) : Host.Outcome State Fault Refusal := finish (storeMem .HL .A s)

/-- `LD (HL+),A` (R105). -/
def execLd_atHLinc_A (s : State) : Host.Outcome State Fault Refusal := finish (storeMemStep .HL .increment s)

/-- `LD (HL-),A` (R106). -/
def execLd_atHLdec_A (s : State) : Host.Outcome State Fault Refusal := finish (storeMemStep .HL .decrement s)

end Sys2Proof.Machine
end

