-- ==== Sys2Proof/Machine/Nop.lean ====
section
/-! DEFINITION. NOP and prefixed NOP (rules R84, R86 of 40_step_nop_prefix.md). -/

namespace Sys2Proof.Machine

/-- "no register or memory effect; still subject to the outer unconditional advance" (R84). -/
def noOperation (s : State) : Except Fault State := .ok s

/-- `NOP` (R84). -/
def execNop (_op : Byte) (s : State) : Host.Outcome State Fault Refusal := finish (noOperation s)

/-- `NOP (CB)` (R86). -/
def execNopCb (_op : Byte) (s : State) : Host.Outcome State Fault Refusal := finish (noOperation s)

end Sys2Proof.Machine
end

