-- ==== Sys2Proof/Machine/Prefix.lean ====
section
/-! DEFINITION. The 0xCB prefix (rule R85 of 40_step_nop_prefix.md): the dispatch of the secondary table. -/

namespace Sys2Proof.Machine

/-- `ExecutePrefixed(pinsn)` (R85): the handler of the prefixed instruction. -/
def executePrefixed (i : Prefixed) (s : State) : Host.Outcome State Fault Refusal :=
  match i with
  | .bit 0 .B => execBit_0_B s
  | .bit 0 .C => execBit_0_C s
  | .bit 0 .D => execBit_0_D s
  | .bit 0 .E => execBit_0_E s
  | .bit 0 .H => execBit_0_H s
  | .bit 0 .L => execBit_0_L s
  | .bit 0 .A => execBit_0_A s
  | .bit 1 .B => execBit_1_B s
  | .bit 1 .C => execBit_1_C s
  | .bit 1 .D => execBit_1_D s
  | .bit 1 .E => execBit_1_E s
  | .bit 1 .H => execBit_1_H s
  | .bit 1 .L => execBit_1_L s
  | .bit 1 .A => execBit_1_A s
  | .bit 2 .B => execBit_2_B s
  | .bit 2 .C => execBit_2_C s
  | .bit 2 .D => execBit_2_D s
  | .bit 2 .E => execBit_2_E s
  | .bit 2 .H => execBit_2_H s
  | .bit 2 .L => execBit_2_L s
  | .bit 2 .A => execBit_2_A s
  | .bit 3 .B => execBit_3_B s
  | .bit 3 .C => execBit_3_C s
  | .bit 3 .D => execBit_3_D s
  | .bit 3 .E => execBit_3_E s
  | .bit 3 .H => execBit_3_H s
  | .bit 3 .L => execBit_3_L s
  | .bit 3 .A => execBit_3_A s
  | .bit 4 .B => execBit_4_B s
  | .bit 4 .C => execBit_4_C s
  | .bit 4 .D => execBit_4_D s
  | .bit 4 .E => execBit_4_E s
  | .bit 4 .H => execBit_4_H s
  | .bit 4 .L => execBit_4_L s
  | .bit 4 .A => execBit_4_A s
  | .bit 5 .B => execBit_5_B s
  | .bit 5 .C => execBit_5_C s
  | .bit 5 .D => execBit_5_D s
  | .bit 5 .E => execBit_5_E s
  | .bit 5 .H => execBit_5_H s
  | .bit 5 .L => execBit_5_L s
  | .bit 5 .A => execBit_5_A s
  | .bit 6 .B => execBit_6_B s
  | .bit 6 .C => execBit_6_C s
  | .bit 6 .D => execBit_6_D s
  | .bit 6 .E => execBit_6_E s
  | .bit 6 .H => execBit_6_H s
  | .bit 6 .L => execBit_6_L s
  | .bit 6 .A => execBit_6_A s
  | .bit 7 .B => execBit_7_B s
  | .bit 7 .C => execBit_7_C s
  | .bit 7 .D => execBit_7_D s
  | .bit 7 .E => execBit_7_E s
  | .bit 7 .H => execBit_7_H s
  | .bit 7 .L => execBit_7_L s
  | .bit 7 .A => execBit_7_A s
  | .nop op => execNopCb op s

/-- `PREFIX CB` (R85). Its operand byte `op2` was fetched before (`FetchOperand`): "decodes it against the secondary table, and
executes the resulting prefixed instruction", in one step. -/
def execPrefixCb (op2 : Byte) (s : State) : Host.Outcome State Fault Refusal :=
  executePrefixed (decodeSecondary s.params op2) s

end Sys2Proof.Machine
end

