-- ==== Sys2Proof/Machine/Xor.lean ====
section
/-! DEFINITION. Accumulator XOR (rules R110, R111 of 42_xor.md). -/

namespace Sys2Proof.Machine

/-- `ReadReg(A) ^ ReadReg(r)` to A, then the flags of the 8-bit result (R110). -/
def xorAccumulator (r : RegName) (s : State) : Except Fault State :=
  let res := readReg .A s ^^^ readReg r s
  .ok (xorFlags (loByte res) (writeReg .A res s))

/-- `XOR B` (R110). -/
def execXor_B (s : State) : Host.Outcome State Fault Refusal := finish (xorAccumulator .B s)

/-- `XOR C` (R110). -/
def execXor_C (s : State) : Host.Outcome State Fault Refusal := finish (xorAccumulator .C s)

/-- `XOR D` (R110). -/
def execXor_D (s : State) : Host.Outcome State Fault Refusal := finish (xorAccumulator .D s)

/-- `XOR E` (R110). -/
def execXor_E (s : State) : Host.Outcome State Fault Refusal := finish (xorAccumulator .E s)

/-- `XOR H` (R110). -/
def execXor_H (s : State) : Host.Outcome State Fault Refusal := finish (xorAccumulator .H s)

/-- `XOR L` (R110). -/
def execXor_L (s : State) : Host.Outcome State Fault Refusal := finish (xorAccumulator .L s)

/-- `XOR A` (R110). -/
def execXor_A (s : State) : Host.Outcome State Fault Refusal := finish (xorAccumulator .A s)

end Sys2Proof.Machine
end

