-- ==== Sys2Proof/Machine/Step.lean ====
section
/-! DEFINITION. The single operation of the core, `Step` (rules R80 to R88 of 40_step_nop_prefix.md), and the placing of one
instruction at the program counter. -/

namespace Sys2Proof.Machine

/-- `Step()` (R81): fetch at `pc`, decode, execute, outer advance. "`Step` is defined only when `run = Running`" (R80). -/
def step (s : State) : Host.Outcome State Fault Refusal :=
  match s.run with
  | .faulted cause => .refused (.stepWhileFaulted cause)
  | .running =>
    match fetchInstr s with
    | .error cause => raiseFatal cause
    | .ok (bytes, t) =>
      match decodePrimary t.params bytes with
      | .error why => .refused (.undecoded why)
      | .ok (i, _) => outerAdvance (exec i t)

/-- The state with the instruction whose bits are `w` (numbered as `tableBytes` says) stored at the program counter, where `step`
fetches next. Stands for the external loader (R48, R153; log entry 8). -/
def State.withFetchWord (s : State) (nbits w : Nat) : State :=
  s.setMem (s.mem.place s.pc (tableBytes nbits w))

end Sys2Proof.Machine
end

