-- ==== Sys2Proof/Safety.lean ====
section
/-! DEFINITION. The terms the claims are stated in: frames, the invariant of a run, the conditions under which a step faults. -/

namespace Sys2Proof.Machine

/-! ### Frames -/

/-- Every backing byte of the register file outside `except` holds in `t` what it holds in `s`: every register, flag and bit of
F, and SP are among these ten bytes (R11 to R13, R17). -/
def sameRfExcept (except : List (Fin 10)) (s t : State) : Prop :=
  ∀ i, i ∉ except → t.rfByte i = s.rfByte i

/-- Every byte of memory outside `except` reads in `t` what it reads in `s`. -/
def sameMemExcept (except : List Nat) (s t : State) : Prop :=
  ∀ a, a ∉ except → t.mem.read a = s.mem.read a

/-- The run status and the parameters are unchanged. -/
def sameRunAndParams (s t : State) : Prop :=
  t.run = s.run ∧ t.params = s.params

/-- The frame of an instruction that writes at most the register bytes `regs` and the memory bytes `stored`; the program
counter is left to the claim. -/
def Frame (regs : List (Fin 10)) (stored : List Nat) (s t : State) : Prop :=
  sameRfExcept regs s t ∧ sameMemExcept stored s t ∧ sameRunAndParams s t

/-- The bytes at `addr`, `addr + 1`, …, as many as asked for. -/
def Memory.bytesAt (m : Memory) : Nat → Nat → List Byte
  | _, 0 => []
  | addr, n + 1 => m.read addr :: Memory.bytesAt m (addr + 1) n

/-- The backing byte of F (R11). -/
def fByte : Fin 10 := RegName.F.loIndex

/-! ### The invariant of a run from reset -/

/-- What every state of a run that starts at construction satisfies: memory in canonical form; `pc` at most 0x100FE (R23);
`Running` (a faulted step has no next state, R132); F bits 3:0 clear (R19); the carry flag clear (R121). -/
structure State.Inv (s : State) : Prop where
  memCanonical : s.mem.wf
  pcBound      : s.pc ≤ 0x100FE
  isRunning    : s.run = .running
  fLowClear    : ∀ i, i < 4 → (s.rfByte fByte).getLsbD i = false
  carryClear   : getFlag .C s = false

/-! ### Safe runs -/

/-- A step is safe in `s` when it completes. -/
def State.stepCompletes (s : State) : Prop := ∃ t, step s = .next t

/-- The run status the core is left in by an outcome (R28, R132): that of the next state, or `Faulted(cause)`; a refusal says
nothing. -/
def statusAfter (o : Host.Outcome State Fault Refusal) : Option RunStatus :=
  match o with
  | .next t => some t.run
  | .fault cause => some (.faulted cause)
  | .refused _ => none

/-- The opcode byte a running core is about to fetch. -/
def State.opcodeAt (s : State) : Byte := s.mem.read s.pc

/-- The conditions under which a step of a running core faults, and with which cause: the rows of the table of R131
(60_exceptions.md), in the order of R135. -/
def FaultsWith (s : State) (cause : Fault) : Prop :=
  -- the opcode fetch
  (0xFFFF < s.pc ∧ cause = .outOfBounds s.pc)
  -- an operand fetch: an operand byte would lie at 0x10000
  ∨ (s.pc ≤ 0xFFFF ∧ 0xFFFF < s.pc + operandCount s.params s.opcodeAt ∧ cause = .outOfBounds 0x10000)
  -- `LD (a16),SP` with a16 = 0xFFFF
  ∨ (s.pc + 2 ≤ 0xFFFF ∧ s.opcodeAt = 0x08 ∧ s.params.assignsPrimary 0x08 = true
      ∧ s.mem.read (s.pc + 1) = 0xFF ∧ s.mem.read (s.pc + 2) = 0xFF ∧ cause = .outOfBounds 0x10000)
  -- `LD (HL+),A` and `LD A,(HL+)` at HL = 0xFFFF
  ∨ (s.pc ≤ 0xFFFF ∧ (s.opcodeAt = 0x22 ∨ s.opcodeAt = 0x2A) ∧ s.params.assignsPrimary s.opcodeAt = true
      ∧ s.params.seOverflow = .fault ∧ readReg .HL s = 0xFFFF ∧ cause = .addrRegOverflow .HL 0xFFFF)
  -- `LD (HL-),A` and `LD A,(HL-)` at HL = 0x0000
  ∨ (s.pc ≤ 0xFFFF ∧ (s.opcodeAt = 0x32 ∨ s.opcodeAt = 0x3A) ∧ s.params.assignsPrimary s.opcodeAt = true
      ∧ s.params.seOverflow = .fault ∧ readReg .HL s = 0x0000 ∧ cause = .addrRegOverflow .HL 0x0000)

/-! ### Groups of instructions of one shape, with the registers the opcode table gives each -/

/-- `LD rr,d16` (R91): destination. -/
def imm16Loads : List ((Word → Instr) × RegName) :=
  [(.ld_BC_d16, .BC), (.ld_DE_d16, .DE), (.ld_HL_d16, .HL), (.ld_SP_d16, .SP)]

/-- `LD r,d8` (R92): destination. -/
def imm8Loads : List ((Byte → Instr) × RegName) :=
  [(.ld_B_d8, .B),
   (.ld_C_d8, .C),
   (.ld_D_d8, .D),
   (.ld_E_d8, .E),
   (.ld_H_d8, .H),
   (.ld_L_d8, .L),
   (.ld_A_d8, .A)]

/-- `LD r,r'` (R93): destination, source. -/
def regLoads : List (Instr × RegName × RegName) :=
  [(.ld_B_B, .B, .B), (.ld_B_C, .B, .C), (.ld_B_D, .B, .D), (.ld_B_E, .B, .E), (.ld_B_H, .B, .H), (.ld_B_L, .B, .L), (.ld_B_A, .B, .A),
   (.ld_C_B, .C, .B), (.ld_C_C, .C, .C), (.ld_C_D, .C, .D), (.ld_C_E, .C, .E), (.ld_C_H, .C, .H), (.ld_C_L, .C, .L), (.ld_C_A, .C, .A),
   (.ld_D_B, .D, .B), (.ld_D_C, .D, .C), (.ld_D_D, .D, .D), (.ld_D_E, .D, .E), (.ld_D_H, .D, .H), (.ld_D_L, .D, .L), (.ld_D_A, .D, .A),
   (.ld_E_B, .E, .B), (.ld_E_C, .E, .C), (.ld_E_D, .E, .D), (.ld_E_E, .E, .E), (.ld_E_H, .E, .H), (.ld_E_L, .E, .L), (.ld_E_A, .E, .A),
   (.ld_H_B, .H, .B), (.ld_H_C, .H, .C), (.ld_H_D, .H, .D), (.ld_H_E, .H, .E), (.ld_H_H, .H, .H), (.ld_H_L, .H, .L), (.ld_H_A, .H, .A),
   (.ld_L_B, .L, .B), (.ld_L_C, .L, .C), (.ld_L_D, .L, .D), (.ld_L_E, .L, .E), (.ld_L_H, .L, .H), (.ld_L_L, .L, .L), (.ld_L_A, .L, .A),
   (.ld_A_B, .A, .B), (.ld_A_C, .A, .C), (.ld_A_D, .A, .D), (.ld_A_E, .A, .E), (.ld_A_H, .A, .H), (.ld_A_L, .A, .L), (.ld_A_A, .A, .A)]

/-- `LD A,(BC)`, `LD A,(DE)`, `LD r,(HL)` (R97, R98, R99): destination, address register. -/
def memLoads : List (Instr × RegName × RegName) :=
  [(.ld_A_atBC, .A, .BC), (.ld_A_atDE, .A, .DE), (.ld_B_atHL, .B, .HL), (.ld_C_atHL, .C, .HL), (.ld_D_atHL, .D, .HL),
   (.ld_E_atHL, .E, .HL), (.ld_H_atHL, .H, .HL), (.ld_L_atHL, .L, .HL), (.ld_A_atHL, .A, .HL)]

/-- `LD (BC),A`, `LD (DE),A`, `LD (HL),r` (R102, R103, R104): address register, source. -/
def memStores : List (Instr × RegName × RegName) :=
  [(.ld_atBC_A, .BC, .A), (.ld_atDE_A, .DE, .A), (.ld_atHL_B, .HL, .B), (.ld_atHL_C, .HL, .C), (.ld_atHL_D, .HL, .D),
   (.ld_atHL_E, .HL, .E), (.ld_atHL_H, .HL, .H), (.ld_atHL_L, .HL, .L), (.ld_atHL_A, .HL, .A)]

/-- `XOR r` (R110): source. -/
def xors : List (Instr × RegName) :=
  [(.xor_B, .B), (.xor_C, .C), (.xor_D, .D), (.xor_E, .E), (.xor_H, .H), (.xor_L, .L), (.xor_A, .A)]

/-- `BIT b,r` (R115): bit index, register. -/
def bitTests : List (Instr × Nat × RegName) :=
  [(.bit_0_B, 0, .B), (.bit_0_C, 0, .C), (.bit_0_D, 0, .D), (.bit_0_E, 0, .E), (.bit_0_H, 0, .H), (.bit_0_L, 0, .L), (.bit_0_A, 0, .A),
   (.bit_1_B, 1, .B), (.bit_1_C, 1, .C), (.bit_1_D, 1, .D), (.bit_1_E, 1, .E), (.bit_1_H, 1, .H), (.bit_1_L, 1, .L), (.bit_1_A, 1, .A),
   (.bit_2_B, 2, .B), (.bit_2_C, 2, .C), (.bit_2_D, 2, .D), (.bit_2_E, 2, .E), (.bit_2_H, 2, .H), (.bit_2_L, 2, .L), (.bit_2_A, 2, .A),
   (.bit_3_B, 3, .B), (.bit_3_C, 3, .C), (.bit_3_D, 3, .D), (.bit_3_E, 3, .E), (.bit_3_H, 3, .H), (.bit_3_L, 3, .L), (.bit_3_A, 3, .A),
   (.bit_4_B, 4, .B), (.bit_4_C, 4, .C), (.bit_4_D, 4, .D), (.bit_4_E, 4, .E), (.bit_4_H, 4, .H), (.bit_4_L, 4, .L), (.bit_4_A, 4, .A),
   (.bit_5_B, 5, .B), (.bit_5_C, 5, .C), (.bit_5_D, 5, .D), (.bit_5_E, 5, .E), (.bit_5_H, 5, .H), (.bit_5_L, 5, .L), (.bit_5_A, 5, .A),
   (.bit_6_B, 6, .B), (.bit_6_C, 6, .C), (.bit_6_D, 6, .D), (.bit_6_E, 6, .E), (.bit_6_H, 6, .H), (.bit_6_L, 6, .L), (.bit_6_A, 6, .A),
   (.bit_7_B, 7, .B), (.bit_7_C, 7, .C), (.bit_7_D, 7, .D), (.bit_7_E, 7, .E), (.bit_7_H, 7, .H), (.bit_7_L, 7, .L), (.bit_7_A, 7, .A)]

end Sys2Proof.Machine
end

