-- ==== Sys2Proof/Certificates/Slice0/Obligations.lean ====
section
/-! DEFINITION. The statements for the provers. Each docstring names the rules of spec/ it formalises. A statement that rests on
a decision of the spec (D<n>, 92_eei_decisions.md) or of the model says so. -/

open Sys2Proof Sys2Proof.Machine

/-! ### Registers and flags -/

/-- R14: what each of the 13 register names reads, as a number, from the ten backing bytes. The byte numbers 0 to 9 are a choice
(R11, decision D10, log entry 12). -/
def Obligations.RegisterReadIsItsBytes : Prop :=
  (∀ p ∈ [(RegName.A, (0 : Fin 10)), (.F, 1), (.B, 2), (.C, 3), (.D, 4), (.E, 5), (.H, 6), (.L, 7)], ∀ s : State,
    (readReg p.1 s).toNat = (s.rfByte p.2).toNat)
  ∧ (∀ p ∈ [(RegName.AF, (0 : Fin 10), (1 : Fin 10)), (.BC, 2, 3), (.DE, 4, 5), (.HL, 6, 7), (.SP, 8, 9)], ∀ s : State,
    (readReg p.1 s).toNat = (s.rfByte p.2.1).toNat * 256 + (s.rfByte p.2.2).toNat)

/-- R15: the backing bytes each of the 13 register names writes, and that it writes nothing else. The byte numbers 0 to 9 are a
choice (R11, decision D10, log entry 12). -/
def Obligations.RegisterWriteTouchesOnlyItsBytes : Prop :=
  (∀ p ∈ [(RegName.A, (0 : Fin 10)), (.F, 1), (.B, 2), (.C, 3), (.D, 4), (.E, 5), (.H, 6), (.L, 7)], ∀ (v : Word) (s : State),
    ((writeReg p.1 v s).rfByte p.2).toNat = v.toNat % 256
    ∧ sameRfExcept [p.2] s (writeReg p.1 v s))
  ∧ (∀ p ∈ [(RegName.AF, (0 : Fin 10), (1 : Fin 10)), (.BC, 2, 3), (.DE, 4, 5), (.HL, 6, 7), (.SP, 8, 9)],
      ∀ (v : Word) (s : State),
    ((writeReg p.1 v s).rfByte p.2.1).toNat = v.toNat / 256
    ∧ ((writeReg p.1 v s).rfByte p.2.2).toNat = v.toNat % 256
    ∧ sameRfExcept [p.2.1, p.2.2] s (writeReg p.1 v s))
  ∧ (∀ (n : RegName) (v : Word) (s : State), (writeReg n v s).pc = s.pc ∧ (writeReg n v s).mem = s.mem
    ∧ sameRunAndParams s (writeReg n v s))

/-- R16, laws 1 to 4: round trip of pairs and SP, truncation of 8-bit registers, a pair from its halves written one after the
other, and nothing else changed. (The SP case and law 4 are marked in R16 as derived by the spec.) -/
def Obligations.RegisterFileLaws : Prop :=
  (∀ n ∈ [RegName.AF, .BC, .DE, .HL, .SP], ∀ (v : Word) (s : State), readReg n (writeReg n v s) = v)
  ∧ (∀ n ∈ [RegName.A, .F, .B, .C, .D, .E, .H, .L], ∀ (v : Word) (s : State), readReg n (writeReg n v s) = v &&& 0xFF)
  ∧ (∀ p ∈ [(RegName.A, RegName.F, RegName.AF), (.B, .C, .BC), (.D, .E, .DE), (.H, .L, .HL)], ∀ (v w : Word) (s : State),
      readReg p.2.2 (writeReg p.2.1 w (writeReg p.1 v s)) = ((v &&& 0xFF) <<< 8) ||| (w &&& 0xFF))
  ∧ (∀ (n : RegName) (v : Word) (s : State), Frame n.bytes [] s (writeReg n v s) ∧ (writeReg n v s).pc = s.pc)

/-- R18: which bit of F each flag is; setting or clearing one changes exactly that bit and nothing else. -/
def Obligations.FlagAccessIsOneBitOfF : Prop :=
  ∀ p ∈ [(FlagName.Z, 7), (.N, 6), (.H, 5), (.C, 4)], ∀ (s : State) (b : Bool),
    getFlag p.1 s = (readReg .F s).getLsbD p.2
    ∧ getFlag p.1 (setFlag p.1 b s) = b
    ∧ (∀ j, j < 8 → j ≠ p.2 → (readReg .F (setFlag p.1 b s)).getLsbD j = (readReg .F s).getLsbD j)
    ∧ Frame RegName.F.bytes [] s (setFlag p.1 b s)
    ∧ (setFlag p.1 b s).pc = s.pc

/-! ### Reset -/

/-- R150: the state after construction with any `MEM_INIT`, every item of the spec's state; and the same of `State.reset`, whose
memory reads 0x00 at every address by the default of `MEM_INIT`, a choice (decision D2, log entry 6). -/
def Obligations.ConstructedStateIsZeroed : Prop :=
  (∀ (p : Params) (memInit : Nat → Byte),
    (∀ i, (State.construct p memInit).rfByte i = 0x00)
    ∧ (∀ n, readReg n (State.construct p memInit) = 0x0000)
    ∧ (∀ x, getFlag x (State.construct p memInit) = false)
    ∧ (State.construct p memInit).pc = 0
    ∧ (∀ a, a ≤ 0xFFFF → (State.construct p memInit).mem.read a = memInit a)
    ∧ (State.construct p memInit).run = .running)
  ∧ (∀ i, State.reset.rfByte i = 0x00) ∧ State.reset.pc = 0
  ∧ (∀ a, a ≤ 0xFFFF → State.reset.mem.read a = 0x00) ∧ State.reset.run = .running

/-- `State.reset` is construction with the spec's default of each parameter (R6; decisions D1, D2, D4; log entries 3 to 6), and
construction keeps the parameters it is given. -/
def Obligations.ResetIsConstructionWithTheDefaults : Prop :=
  State.reset = State.construct ⟨.fault, [], []⟩ (fun _ => 0x00)
  ∧ ∀ (p : Params) (memInit : Nat → Byte), (State.construct p memInit).params = p

/-! ### Memory -/

/-- R41: a read and a write inside 0..0xFFFF, and the fault above; what every address reads after a write, and that the write
changes nothing else; before any write an address reads `MEM_INIT`. The premise and the conclusions that the memory list is
canonical are the model's own (log entry 19); the address recorded in the fault is a choice (decision D6, log entry 14). -/
def Obligations.MemoryReadsTheByteLastWritten : Prop :=
  (∀ s : State, s.mem.wf → ∀ (a : Nat) (b : Byte),
    (a ≤ 0xFFFF → memRead a s = .ok (s.mem.read a)
      ∧ ∃ t, memWrite a b s = .ok t ∧ memRead a t = .ok b ∧ (∀ a', a' ≠ a → memRead a' t = memRead a' s)
        ∧ Frame [] [a] s t ∧ t.pc = s.pc ∧ t.mem.wf)
    ∧ (0xFFFF < a → memRead a s = .error (.outOfBounds a) ∧ memWrite a b s = .error (.outOfBounds a)))
  ∧ ∀ (p : Params) (memInit : Nat → Byte) (a : Nat), a ≤ 0xFFFF →
      memRead a (State.construct p memInit) = .ok (memInit a) ∧ (State.construct p memInit).mem.wf

/-- R82: `FetchOperand` advances first and reads second; the k-th call of a step that began with `pc = a` returns `mem[a + k]`.
Above 0xFFFF it faults: that the fetch faults and `pc` does not wrap is decision D3 (log entry 7), the address recorded is
decision D6 (log entry 14; R131). -/
def Obligations.OperandFetchAdvancesThenReads : Prop :=
  (∀ s : State, s.pc + 1 ≤ 0xFFFF → fetchOperand s = .ok (s.mem.read (s.pc + 1), s.setPc (s.pc + 1)))
  ∧ (∀ s : State, 0xFFFF < s.pc + 1 → fetchOperand s = .error (.outOfBounds (s.pc + 1)))
  ∧ (∀ (k : Nat) (s : State), s.pc + k ≤ 0xFFFF →
      ∃ bs, fetchOperands k s = .ok (bs, s.setPc (s.pc + k)) ∧ bs.length = k
        ∧ ∀ j, j < k → bs[j]? = some (s.mem.read (s.pc + 1 + j)))

/-- R43 and R7: splitting a word into its bytes and joining them again is the identity, `{a, b} = a*256 + b`. -/
def Obligations.SplitAndJoinOfAWord : Prop :=
  (∀ w : Word, joinBytes (hiByte w) (loByte w) = w)
  ∧ (∀ hi lo : Byte, (joinBytes hi lo).toNat = hi.toNat * 256 + lo.toNat
      ∧ hiByte (joinBytes hi lo) = hi ∧ loByte (joinBytes hi lo) = lo)

/-- R107 (decision D4: the two policies of `SE_OVERFLOW`, and that they apply at both ends, log entry 5; decision D6: what the
fault records, log entry 14): `AddrStep` on any register name. -/
def Obligations.AddressStepFollowsThePolicy : Prop :=
  ∀ (n : RegName) (s : State),
    ((readReg n s).toNat < 0xFFFF →
      addrStep n .increment s = .ok (writeReg n (BitVec.ofNat 16 ((readReg n s).toNat + 1)) s))
    ∧ (readReg n s = 0xFFFF → s.params.seOverflow = .wrap → addrStep n .increment s = .ok (writeReg n 0x0000 s))
    ∧ (readReg n s = 0xFFFF → s.params.seOverflow = .fault →
        addrStep n .increment s = .error (.addrRegOverflow n 0xFFFF))
    ∧ (0 < (readReg n s).toNat →
      addrStep n .decrement s = .ok (writeReg n (BitVec.ofNat 16 ((readReg n s).toNat - 1)) s))
    ∧ (readReg n s = 0x0000 → s.params.seOverflow = .wrap → addrStep n .decrement s = .ok (writeReg n 0xFFFF s))
    ∧ (readReg n s = 0x0000 → s.params.seOverflow = .fault →
        addrStep n .decrement s = .error (.addrRegOverflow n 0x0000))

/-! ### Decoding -/

/-- R67: the six opcode bytes that RB itself gives, whatever `ASSIGNED_G` is. -/
def Obligations.TierSBytesDecode : Prop :=
  ∀ (p : Params) (b0 b1 : Byte),
    decode p [0x31, b0, b1] = .ok (.ld_SP_d16 (joinBytes b1 b0), [])
    ∧ decode p [0xAF] = .ok (.xor_A, [])
    ∧ decodePrimary p [0xCB, b0] = .ok (.prefixCb b0, [])
    ∧ decode p [0x20, b0] = .ok (.jr_NZ_d8 b0, [])
    ∧ decode p [0xCB, 0x7C] = .ok (.bit_7_H, [])
    ∧ decode p [0x00] = .ok (.nop 0x00, [])

/-- One word of each family, written out from the spec's encodings (R84, R86, R91 to R97, R100, R102, R105, R110, R115, R121),
decodes to its instruction under the default parameters (tier G bytes: decision D1, log entry 4). -/
def Obligations.SampleWordsDecode : Prop :=
  decode defaultParams [0x76] = .ok (.nop 0x76, [])
  ∧ decode defaultParams [0xCB, 0x66] = .ok (.nopCb 0x66, [])
  ∧ decode defaultParams [0x21, 0xFF, 0x9F] = .ok (.ld_HL_d16 0x9FFF, [])
  ∧ decode defaultParams [0x3E, 0x7F] = .ok (.ld_A_d8 0x7F, [])
  ∧ decode defaultParams [0x78] = .ok (.ld_A_B, [])
  ∧ decode defaultParams [0xF9] = .ok (.ld_SP_HL, [])
  ∧ decode defaultParams [0x36, 0xAB] = .ok (.ld_atHL_d8 0xAB, [])
  ∧ decode defaultParams [0x08, 0x00, 0xC1] = .ok (.ld_atA16_SP 0xC100, [])
  ∧ decode defaultParams [0x0A] = .ok (.ld_A_atBC, [])
  ∧ decode defaultParams [0x2A] = .ok (.ld_A_atHLinc, [])
  ∧ decode defaultParams [0x12] = .ok (.ld_atDE_A, [])
  ∧ decode defaultParams [0x32] = .ok (.ld_atHLdec_A, [])
  ∧ decode defaultParams [0xA8] = .ok (.xor_B, [])
  ∧ decode defaultParams [0xCB, 0x5B] = .ok (.bit_3_E, [])
  ∧ decode defaultParams [0x30, 0x10] = .ok (.jr_NC_d8 0x10, [])

/-- R65, R66, R60: decoding is total. Every opcode byte with its operand bytes, at most two, decodes to an instruction of the
maps the parameters select, whatever bytes follow it. -/
def Obligations.DecodeIsTotal : Prop :=
  ∀ (p : Params) (op : Byte), operandCount p op ≤ 2 ∧
    ∀ operands rest : List Byte, operands.length = operandCount p op →
      ∃ i, decode p (op :: operands ++ rest) = .ok (i, rest) ∧ i.wf = true ∧ i.inMap p = true

/-- R61: the number of operand bytes of every opcode byte of the default table (tier G bytes: decision D1, log entry 4). -/
def Obligations.OperandCountOfEachOpcode : Prop :=
  ∀ op : Byte, operandCount defaultParams op =
    if op.toNat ∈ [0x01, 0x11, 0x21, 0x31, 0x08] then 2
    else if op.toNat ∈ [0x06, 0x0E, 0x16, 0x1E, 0x26, 0x2E, 0x3E, 0x36, 0x20, 0x30, 0xCB] then 1
    else 0

/-- R73 (derived by the spec from R65 to R69): under every `ASSIGNED_G`, a byte of tier U is a no-op, and a byte of tier G is
either what the default table has there or a no-op, the latter exactly when it is left out. -/
def Obligations.UnassignedBytesAreNoOps : Prop :=
  ∀ (p : Params) (op : Byte) (bs : List Byte),
    (tierSPrimary op = false → tierGPrimary op = false → decode p (op :: bs) = .ok (.nop op, bs))
    ∧ (tierSSecondary op = false → tierGSecondary op = false → decode p (0xCB :: op :: bs) = .ok (.nopCb op, bs))
    ∧ (tierGPrimary op = true → p.leftOutPrimary.contains op = true → decode p (op :: bs) = .ok (.nop op, bs))
    ∧ (tierGSecondary op = true → p.leftOutSecondary.contains op = true →
        decode p (0xCB :: op :: bs) = .ok (.nopCb op, bs))
    ∧ (tierGPrimary op = true → p.leftOutPrimary.contains op = false →
        decode p (op :: bs) = decode defaultParams (op :: bs))
    ∧ (tierGSecondary op = true → p.leftOutSecondary.contains op = false →
        decode p (0xCB :: op :: bs) = decode defaultParams (0xCB :: op :: bs))

/-- Decoding an encoded instruction gives it back, for every instruction of the maps that any parameters select, every operand
value and whatever bytes follow (R60 to R73; tier G bytes: decision D1, log entry 4). `prefixCb` is the primary table's variant: the primary decoder gives it back, and
the whole decoder gives the instruction it enters. -/
def Obligations.DecodeOfEncodeIsTheInstruction : Prop :=
  ∀ (p : Params) (i : Instr), i.inMap p = true → ∀ rest : List Byte,
    decode p (encode i ++ rest) = .ok (resolvePrefix p i, rest)
    ∧ (i.table = .primary → decodePrimary p (encode i ++ rest) = .ok (i, rest))
    ∧ ((∀ op2, i ≠ .prefixCb op2) → resolvePrefix p i = i)

/-- What the decoder reads is the encoding of what it answers: no two byte sequences share an instruction, no byte is dropped
(R60 to R73; tier G bytes: decision D1, log entry 4), and the answer is well formed and in the selected maps. -/
def Obligations.EncodeOfDecodeIsTheBytes : Prop :=
  ∀ (p : Params) (bs rest : List Byte) (i : Instr), decode p bs = .ok (i, rest) →
    bs = encode i ++ rest ∧ i.wf = true ∧ i.inMap p = true ∧ ∀ op2, i ≠ .prefixCb op2

/-! ### The step -/

/-- R80 to R83: when the bytes at `pc` decode to `i` and lie inside memory, a step of a running core is `exec i` with `pc` at the
last byte of `i`, followed by the outer advance. -/
def Obligations.StepRunsTheDecodedInstruction : Prop :=
  ∀ (s : State) (n : Nat) (i : Instr) (rest : List Byte), s.run = .running →
    decode s.params (s.mem.bytesAt s.pc n) = .ok (i, rest) → s.pc + i.length ≤ 0x10000 →
    step s = outerAdvance (exec i (s.setPc (s.pc + i.length - 1)))

/-- R131, R135 and R87 (causes, recorded values and policy are decisions D3, D4, D6, D8): a step of a running core faults
exactly under the conditions of R131's table, with the cause and the value of its row; otherwise it completes. -/
def Obligations.StepFaultsExactlyAsListed : Prop :=
  ∀ s : State, s.run = .running →
    (∀ c, step s = .fault c ↔ FaultsWith s c)
    ∧ ((¬ ∃ c, FaultsWith s c) ↔ ∃ t, step s = .next t)

/-- R87: a step of a running core is never refused: it completes in a running state or ends in the fatal fault. -/
def Obligations.RunningStepIsNeverRefused : Prop :=
  ∀ s : State, s.run = .running → (∃ t, step s = .next t ∧ t.run = .running) ∨ ∃ c, step s = .fault c

/-- R132, R154 ("`Step` is not defined in it"; that the model answers with a refusal is its own choice, log entry 2): a core left
in `Faulted(cause)` takes no step. -/
def Obligations.FaultedCoreTakesNoStep : Prop :=
  ∀ (s : State) (c : Fault), step (s.markFaulted c) = .refused (.stepWhileFaulted c)

/-- R22, R83 (derived by the spec; no wrap: decision D3, distance 0: decision D7): how each instruction leaves `pc`, `a` the
address of its opcode byte: `a` plus its length, but for a taken jump `a + d + 1`. -/
def Obligations.ProgramCounterAccounting : Prop :=
  ∀ (s t : State) (n : Nat) (i : Instr) (rest : List Byte),
    decode s.params (s.mem.bytesAt s.pc n) = .ok (i, rest) → step s = .next t →
    t.pc = match i with
      | .jr_NZ_d8 d => if getFlag .Z s = false then s.pc + d.toNat + 1 else s.pc + 2
      | .jr_NC_d8 d => if getFlag .C s = false then s.pc + d.toNat + 1 else s.pc + 2
      | _ => s.pc + i.length

/-! ### Load instructions: results, completion and frames -/

/-- R91: `LD rr,d16` completes for every state and immediate, writes the destination, and leaves all else. -/
def Obligations.LoadImmediate16 : Prop :=
  ∀ r ∈ imm16Loads, ∀ (v : Word) (s : State), ∃ t, exec (r.1 v) s = .next t
    ∧ readReg r.2 t = v ∧ Frame r.2.bytes [] s t ∧ t.pc = s.pc

/-- R92: `LD r,d8` completes, writes the zero-extended byte to the 8-bit register, its pair-mate and all else unchanged. -/
def Obligations.LoadImmediate8 : Prop :=
  ∀ r ∈ imm8Loads, ∀ (b : Byte) (s : State), ∃ t, exec (r.1 b) s = .next t
    ∧ (readReg r.2 t).toNat = b.toNat ∧ Frame r.2.bytes [] s t ∧ t.pc = s.pc

/-- R93: `LD r,r'`, all 49 combinations, completes, copies the source (also onto itself), and leaves all else. -/
def Obligations.LoadRegisterFromRegister : Prop :=
  ∀ r ∈ regLoads, ∀ s : State, ∃ t, exec r.1 s = .next t
    ∧ readReg r.2.1 t = readReg r.2.2 s ∧ Frame r.2.1.bytes [] s t ∧ t.pc = s.pc

/-- R94: `LD SP,HL` completes, copies HL to SP, and leaves all else, HL included. -/
def Obligations.LoadSpFromHl : Prop :=
  ∀ s : State, ∃ t, exec .ld_SP_HL s = .next t
    ∧ readReg .SP t = readReg .HL s ∧ Frame RegName.SP.bytes [] s t ∧ t.pc = s.pc

/-- R95: `LD (HL),d8` completes, stores the byte at the address in HL, and leaves all else (canonical memory: log entry 19). -/
def Obligations.StoreImmediateAtHl : Prop :=
  ∀ (b : Byte) (s : State), s.mem.wf → ∃ t, exec (.ld_atHL_d8 b) s = .next t
    ∧ t.mem.read (readReg .HL s).toNat = b ∧ Frame [] [(readReg .HL s).toNat] s t ∧ t.pc = s.pc

/-- R96, R43: `LD (a16),SP` below 0xFFFF completes, stores the low byte of SP at the address and the high byte at the next one,
and leaves all else (canonical memory: log entry 19). -/
def Obligations.StoreSpAbsolute : Prop :=
  ∀ (a16 : Word) (s : State), s.mem.wf → a16 ≠ 0xFFFF → ∃ t, exec (.ld_atA16_SP a16) s = .next t
    ∧ (t.mem.read a16.toNat).toNat = (readReg .SP s).toNat % 256
    ∧ (t.mem.read (a16.toNat + 1)).toNat = (readReg .SP s).toNat / 256
    ∧ Frame [] [a16.toNat, a16.toNat + 1] s t ∧ t.pc = s.pc

/-- R96 with decision D8 (`address+1` does not wrap): `LD (0xFFFF),SP` faults on its second store, at address 0x10000
(what the fault records: decision D6, log entry 14). -/
def Obligations.StoreSpAtTopFaults : Prop :=
  ∀ s : State, exec (.ld_atA16_SP 0xFFFF) s = .fault (.outOfBounds 0x10000)

/-- R97, R98, R99: the plain loads from memory complete, write the byte at the address the address register held before the
step, and leave all else. -/
def Obligations.LoadFromMemory : Prop :=
  ∀ r ∈ memLoads, ∀ s : State, ∃ t, exec r.1 s = .next t
    ∧ (readReg r.2.1 t).toNat = (s.mem.read (readReg r.2.2 s).toNat).toNat
    ∧ Frame r.2.1.bytes [] s t ∧ t.pc = s.pc

/-- R102, R103, R104: the plain stores to memory complete, store the low byte of the source at the address held by the address
register, and leave all else (canonical memory: log entry 19). -/
def Obligations.StoreToMemory : Prop :=
  ∀ r ∈ memStores, ∀ s : State, s.mem.wf → ∃ t, exec r.1 s = .next t
    ∧ (t.mem.read (readReg r.2.1 s).toNat).toNat = (readReg r.2.2 s).toNat % 256
    ∧ Frame [] [(readReg r.2.1 s).toNat] s t ∧ t.pc = s.pc

/-- R100, R101 with decision D4 at the ends: `LD A,(HL+)` and `LD A,(HL-)` complete where HL can step or `SE_OVERFLOW = Wrap`:
A is the byte at the old HL, HL is one more or less modulo 65536, all else is unchanged, the flags included. -/
def Obligations.LoadWithSideEffect : Prop :=
  (∀ s : State, readReg .HL s ≠ 0xFFFF ∨ s.params.seOverflow = .wrap →
    ∃ t, exec .ld_A_atHLinc s = .next t
      ∧ (readReg .A t).toNat = (s.mem.read (readReg .HL s).toNat).toNat
      ∧ (readReg .HL t).toNat = ((readReg .HL s).toNat + 1) % 65536
      ∧ Frame (RegName.A.bytes ++ RegName.HL.bytes) [] s t ∧ t.pc = s.pc)
  ∧ (∀ s : State, readReg .HL s ≠ 0x0000 ∨ s.params.seOverflow = .wrap →
    ∃ t, exec .ld_A_atHLdec s = .next t
      ∧ (readReg .A t).toNat = (s.mem.read (readReg .HL s).toNat).toNat
      ∧ (readReg .HL t).toNat = ((readReg .HL s).toNat + 65535) % 65536
      ∧ Frame (RegName.A.bytes ++ RegName.HL.bytes) [] s t ∧ t.pc = s.pc)

/-- R105, R106 with decision D4 at the ends: `LD (HL+),A` and `LD (HL-),A` complete where HL can step or `SE_OVERFLOW = Wrap`:
A is stored at the old HL, HL is one more or less modulo 65536, all else is unchanged (canonical memory: log entry 19). -/
def Obligations.StoreWithSideEffect : Prop :=
  (∀ s : State, s.mem.wf → readReg .HL s ≠ 0xFFFF ∨ s.params.seOverflow = .wrap →
    ∃ t, exec .ld_atHLinc_A s = .next t
      ∧ (t.mem.read (readReg .HL s).toNat).toNat = (readReg .A s).toNat
      ∧ (readReg .HL t).toNat = ((readReg .HL s).toNat + 1) % 65536
      ∧ Frame RegName.HL.bytes [(readReg .HL s).toNat] s t ∧ t.pc = s.pc)
  ∧ (∀ s : State, s.mem.wf → readReg .HL s ≠ 0x0000 ∨ s.params.seOverflow = .wrap →
    ∃ t, exec .ld_atHLdec_A s = .next t
      ∧ (t.mem.read (readReg .HL s).toNat).toNat = (readReg .A s).toNat
      ∧ (readReg .HL t).toNat = ((readReg .HL s).toNat + 65535) % 65536
      ∧ Frame RegName.HL.bytes [(readReg .HL s).toNat] s t ∧ t.pc = s.pc)

/-- R107 with decision D4: with `SE_OVERFLOW = Fault`, the increment forms fault at HL = 0xFFFF and the decrement forms at
HL = 0x0000 (what the fault records: decision D6, log entry 14). -/
def Obligations.SideEffectOverflowFaults : Prop :=
  ∀ s : State, s.params.seOverflow = .fault →
    (readReg .HL s = 0xFFFF →
      exec .ld_A_atHLinc s = .fault (.addrRegOverflow .HL 0xFFFF)
      ∧ exec .ld_atHLinc_A s = .fault (.addrRegOverflow .HL 0xFFFF))
    ∧ (readReg .HL s = 0x0000 →
      exec .ld_A_atHLdec s = .fault (.addrRegOverflow .HL 0x0000)
      ∧ exec .ld_atHLdec_A s = .fault (.addrRegOverflow .HL 0x0000))

/-- R108 (derived by the spec; decision D14, log entry 18): every load handler that takes register names, over all 13 of them. It
completes with its result and frame: an 8-bit destination keeps the low byte, an 8-bit source is zero-extended, an 8-bit address
register addresses its zero-extended value. A side-effect handler is its plain access to A followed by `AddrStep`, which of an
8-bit register at 0xFF stays in range and keeps 0x00, and at 0x00 is out of range, so that `SE_OVERFLOW` applies (decision D4; what
the fault records: decision D6, log entry 14; canonical memory: log entry 19). -/
def Obligations.HandlersOverAllRegisterNames : Prop :=
  (∀ (n : RegName) (s : State), regAddress n s = (readReg n s).toNat
    ∧ (n.hiIndex = none → regAddress n s = (s.rfByte n.loIndex).toNat))
  ∧ (∀ (dst : RegName) (v : Word) (s : State), ∃ t, loadImm16 dst v s = .ok t ∧ Frame dst.bytes [] s t ∧ t.pc = s.pc
    ∧ readReg dst t = if dst.hiIndex = none then v &&& 0xFF else v)
  ∧ (∀ (dst : RegName) (b : Byte) (s : State), ∃ t, loadImm8 dst b s = .ok t ∧ Frame dst.bytes [] s t ∧ t.pc = s.pc
    ∧ (readReg dst t).toNat = b.toNat)
  ∧ (∀ (dst src : RegName) (s : State), ∃ t, loadReg dst src s = .ok t ∧ Frame dst.bytes [] s t ∧ t.pc = s.pc
    ∧ (readReg dst t = if dst.hiIndex = none then readReg src s &&& 0xFF else readReg src s)
    ∧ (src.hiIndex = none → (readReg dst t).toNat = (s.rfByte src.loIndex).toNat))
  ∧ (∀ (dst addr : RegName) (s : State), ∃ t, loadMem dst addr s = .ok t ∧ Frame dst.bytes [] s t ∧ t.pc = s.pc
    ∧ (readReg dst t).toNat = (s.mem.read (regAddress addr s)).toNat)
  ∧ (∀ (addr : RegName) (b : Byte) (s : State), s.mem.wf → ∃ t, storeImm8 addr b s = .ok t
    ∧ Frame [] [regAddress addr s] s t ∧ t.pc = s.pc ∧ t.mem.read (regAddress addr s) = b)
  ∧ (∀ (addr src : RegName) (s : State), s.mem.wf → ∃ t, storeMem addr src s = .ok t
    ∧ Frame [] [regAddress addr s] s t ∧ t.pc = s.pc
    ∧ (t.mem.read (regAddress addr s)).toNat = (readReg src s).toNat % 256)
  ∧ (∀ (addr : RegName) (dir : StepDir) (s : State), ∃ t, loadMemStep addr dir s = addrStep addr dir t
    ∧ Frame RegName.A.bytes [] s t ∧ t.pc = s.pc ∧ (readReg .A t).toNat = (s.mem.read (regAddress addr s)).toNat)
  ∧ (∀ (addr : RegName) (dir : StepDir) (s : State), s.mem.wf → ∃ t, storeMemStep addr dir s = addrStep addr dir t
    ∧ Frame [] [regAddress addr s] s t ∧ t.pc = s.pc ∧ (t.mem.read (regAddress addr s)).toNat = (readReg .A s).toNat)
  ∧ (∀ (n : RegName) (s : State), n.hiIndex = none →
    (readReg n s = 0x00FF → ∃ t, addrStep n .increment s = .ok t ∧ Frame n.bytes [] s t ∧ t.pc = s.pc ∧ readReg n t = 0x0000)
    ∧ (readReg n s = 0x0000 → s.params.seOverflow = .wrap →
      ∃ t, addrStep n .decrement s = .ok t ∧ Frame n.bytes [] s t ∧ t.pc = s.pc ∧ readReg n t = 0x00FF)
    ∧ (readReg n s = 0x0000 → s.params.seOverflow = .fault →
      addrStep n .decrement s = .error (.addrRegOverflow n 0x0000)))

/-! ### XOR, BIT, JR, NOP, PREFIX CB -/

/-- R110: `XOR r` completes; A is the bitwise exclusive or; all of F is written, 0x80 for a zero result and 0x00 otherwise (all
eight bits: decision D11); all else is unchanged. -/
def Obligations.XorResult : Prop :=
  ∀ r ∈ xors, ∀ s : State, ∃ t, exec r.1 s = .next t
    ∧ readReg .A t = readReg .A s ^^^ readReg r.2 s
    ∧ readReg .F t = (if readReg .A s = readReg r.2 s then 0x80 else 0x00)
    ∧ Frame RegName.AF.bytes [] s t ∧ t.pc = s.pc

/-- R115: `BIT b,r` completes; `F_new = (F_old & 0x1F) | 0x20 | (t = 0 ? 0x80 : 0x00)`; no other register, no memory. -/
def Obligations.BitTestResult : Prop :=
  ∀ r ∈ bitTests, ∀ s : State, ∃ t, exec r.1 s = .next t
    ∧ readReg .F t = ((readReg .F s &&& 0x1F) ||| 0x20 ||| (if (readReg r.2.2 s).getLsbD r.2.1 = false then 0x80 else 0x00))
    ∧ Frame RegName.F.bytes [] s t ∧ t.pc = s.pc

/-- R122: the relative jump on any of the four flags, as a handler after its operand fetch (so `pc ≥ 1`), on integers; R120 and
R121: `JR NZ` is the one on Z, `JR NC` the one on C. Distance 0 by decision D7 (log entry 9), no wrap by decision D3 (log
entry 7). -/
def Obligations.RelativeJumpOnClearFlag : Prop :=
  ∀ (d : Byte) (s : State), 1 ≤ s.pc →
    (∀ x : FlagName, ∃ t, jumpIfClear x d s = .ok t
      ∧ (t.pc : Int) = (if getFlag x s = false then (s.pc : Int) + d.toNat - 1 else s.pc) ∧ Frame [] [] s t)
    ∧ (∃ t, exec (.jr_NZ_d8 d) s = .next t
      ∧ (t.pc : Int) = (if getFlag .Z s = false then (s.pc : Int) + d.toNat - 1 else s.pc) ∧ Frame [] [] s t)
    ∧ (∃ t, exec (.jr_NC_d8 d) s = .next t
      ∧ (t.pc : Int) = (if getFlag .C s = false then (s.pc : Int) + d.toNat - 1 else s.pc) ∧ Frame [] [] s t)

/-- R84, R86, R69: the two no-ops complete and change nothing; a step at any byte that is not assigned changes nothing but `pc`,
by 1 in the primary table and by 2 after 0xCB (`pc` past 0xFFFF does not wrap: decision D3, log entry 7). -/
def Obligations.NoOpOnlyAdvances : Prop :=
  ∀ s : State,
    (∀ op, ∃ t, exec (.nop op) s = .next t ∧ Frame [] [] s t ∧ t.pc = s.pc)
    ∧ (∀ op, ∃ t, exec (.nopCb op) s = .next t ∧ Frame [] [] s t ∧ t.pc = s.pc)
    ∧ (s.run = .running → s.pc ≤ 0xFFFF → s.params.assignsPrimary (s.mem.read s.pc) = false →
        step s = .next (s.setPc (s.pc + 1)))
    ∧ (s.run = .running → s.pc + 1 ≤ 0xFFFF → s.mem.read s.pc = 0xCB →
        s.params.assignsSecondary (s.mem.read (s.pc + 1)) = false → step s = .next (s.setPc (s.pc + 2)))

/-- R85: `PREFIX CB` with any byte after it completes as the prefixed instruction that byte decodes to, in one step; it writes at
most F, and neither the carry flag nor F bits 3:0. -/
def Obligations.PrefixRunsThePrefixedInstruction : Prop :=
  ∀ (op2 : Byte) (s : State), ∃ t, exec (.prefixCb op2) s = .next t
    ∧ exec (decodeSecondary s.params op2).toInstr s = .next t
    ∧ Frame RegName.F.bytes [] s t ∧ t.pc = s.pc
    ∧ ∀ j, j < 5 → (readReg .F t).getLsbD j = (readReg .F s).getLsbD j

/-! ### Whole steps of the tier S instructions, under every `ASSIGNED_G` and `SE_OVERFLOW` -/

/-- R91 for its tier S byte: a step at `31 lo hi` loads SP with `{hi, lo}`, moves `pc` by 3 and leaves all else (no wrap of `pc`:
decision D3, log entry 7). -/
def Obligations.StepOfLoadSpImmediate : Prop :=
  ∀ s : State, s.run = .running → s.pc + 2 ≤ 0xFFFF → s.mem.read s.pc = 0x31 →
    ∃ t, step s = .next t
      ∧ (readReg .SP t).toNat = (s.mem.read (s.pc + 2)).toNat * 256 + (s.mem.read (s.pc + 1)).toNat
      ∧ t.pc = s.pc + 3 ∧ Frame RegName.SP.bytes [] s t

/-- R110 for its tier S byte: a step at `AF` leaves A = 0x00 and F = 0x80 whatever they held (all eight bits: decision D11, log
entry 13), moves `pc` by 1 and leaves all else (no wrap: decision D3, log entry 7). -/
def Obligations.StepOfXorA : Prop :=
  ∀ s : State, s.run = .running → s.pc ≤ 0xFFFF → s.mem.read s.pc = 0xAF →
    ∃ t, step s = .next t ∧ readReg .A t = 0x00 ∧ readReg .F t = 0x80 ∧ t.pc = s.pc + 1
      ∧ Frame RegName.AF.bytes [] s t

/-- R115 for its tier S byte, with R85: a step at `CB 7C` tests bit 7 of H, moves `pc` by 2 and leaves all else (no wrap of `pc`:
decision D3, log entry 7). -/
def Obligations.StepOfBit7H : Prop :=
  ∀ s : State, s.run = .running → s.pc + 1 ≤ 0xFFFF → s.mem.read s.pc = 0xCB → s.mem.read (s.pc + 1) = 0x7C →
    ∃ t, step s = .next t ∧ getFlag .Z t = !(readReg .H s).getLsbD 7 ∧ getFlag .N t = false ∧ getFlag .H t = true
      ∧ (∀ j, j < 5 → (readReg .F t).getLsbD j = (readReg .F s).getLsbD j)
      ∧ t.pc = s.pc + 2 ∧ Frame RegName.F.bytes [] s t

/-- R120, R122 (distance 0: decision D7, log entry 9; no wrap of `pc`: decision D3, log entry 7; what the fault records: decision D6,
log entry 14): a step at `20 d` with the opcode at `a`: `a + d + 1` when Z
is clear, `a + 2` when it is set, nothing else changed; the operand fetch of an opcode at 0xFFFF faults whatever Z is. -/
def Obligations.StepOfJumpNz : Prop :=
  ∀ s : State, s.run = .running → s.mem.read s.pc = 0x20 →
    (s.pc + 1 ≤ 0xFFFF → ∃ t, step s = .next t
      ∧ t.pc = (if getFlag .Z s = false then s.pc + (s.mem.read (s.pc + 1)).toNat + 1 else s.pc + 2)
      ∧ Frame [] [] s t)
    ∧ (s.pc = 0xFFFF → step s = .fault (.outOfBounds 0x10000))

/-! ### Whole-machine rules -/

/-- A run from construction keeps memory canonical (log entry 19), `pc ≤ 0x100FE` (R23), F bits 3:0 clear (R19) and the carry flag clear (R121):
every step from a state that satisfies the invariant keeps it. -/
def Obligations.StepKeepsTheInvariant : Prop :=
  ∀ s t : State, s.Inv → step s = .next t → t.Inv

/-- The invariant holds after construction with every parameter and every image, at reset among them (R19, R29; canonical memory:
log entry 19). -/
def Obligations.ConstructionEstablishesTheInvariant : Prop :=
  (∀ (p : Params) (memInit : Nat → Byte), (State.construct p memInit).Inv) ∧ State.reset.Inv

/-- R124, R23 (derived by the spec; decision D3): from any state, a completed step moves `pc` forward by at least 1, to at most
0x100FE. -/
def Obligations.ProgramCounterOnlyMovesForward : Prop :=
  ∀ s t : State, step s = .next t → s.pc + 1 ≤ t.pc ∧ t.pc ≤ 0x100FE

/-- R88, R124 (derived by the spec; decisions D3, D16): a run of any running core, whatever memory holds, ends in the fatal fault
within 65537 steps; a run of `k` steps that completes has `k ≤ 65536` and has moved `pc` by at least `k`. -/
def Obligations.EveryRunEndsInTheFatalFault : Prop :=
  ∀ s : State, s.run = .running →
    (∃ c : Fault, Host.Core.run Sys2Proof.core 65537 s = .fault c)
    ∧ ∀ (k : Nat) (t : State), Host.Core.run Sys2Proof.core k s = .next t → k ≤ 65536 ∧ s.pc + k ≤ t.pc

/-- R30, R90: F changes only in `XOR r` and `BIT b,r` (by the prefix when it enters one of them). -/
def Obligations.OnlyXorAndBitWriteF : Prop :=
  ∀ (i : Instr) (s t : State), exec i s = .next t → readReg .F t ≠ readReg .F s →
    resolvePrefix s.params i ∈ xors.map (·.1) ++ bitTests.map (·.1)

/-- R30, R121: no instruction sets the carry flag; F bits 3:0 are never set either (R19). -/
def Obligations.NoInstructionSetsCarry : Prop :=
  ∀ (i : Instr) (s t : State), exec i s = .next t →
    ∀ j, j < 5 → (readReg .F t).getLsbD j = true → (readReg .F s).getLsbD j = true

/-- R121 (derived by the spec): in a state of a run from construction `JR NC,d8` is always taken and lands on `a + d + 1` (distance 0
by decision D7, log entry 9; no wrap of `pc` by decision D3, log entry 7; byte 0x30 is tier G, decision D1, log entry 4). -/
def Obligations.JumpNcIsAlwaysTakenInRuns : Prop :=
  ∀ s : State, s.Inv → s.pc + 1 ≤ 0xFFFF → s.mem.read s.pc = 0x30 → s.params.assignsPrimary 0x30 = true →
    ∃ t, step s = .next t ∧ t.pc = s.pc + (s.mem.read (s.pc + 1)).toNat + 1 ∧ Frame [] [] s t

/-- R13, R20: SP is written by `LD SP,d16` and `LD SP,HL` only. -/
def Obligations.OnlySpLoadsWriteSp : Prop :=
  ∀ (i : Instr) (s t : State), exec i s = .next t → readReg .SP t ≠ readReg .SP s →
    i = .ld_SP_HL ∨ ∃ v, i = .ld_SP_d16 v

/-- R46, R42: memory changes only in the store instructions, and there only at the addresses they store to: the address in the
address register before the step, or a16 and a16 + 1. -/
def Obligations.OnlyStoresChangeMemory : Prop :=
  ∀ (i : Instr) (s t : State), exec i s = .next t → ∀ a, t.mem.read a ≠ s.mem.read a →
    (∃ r ∈ memStores, i = r.1 ∧ a = (readReg r.2.1 s).toNat)
    ∨ (∃ b, i = .ld_atHL_d8 b ∧ a = (readReg .HL s).toNat)
    ∨ ((i = .ld_atHLinc_A ∨ i = .ld_atHLdec_A) ∧ a = (readReg .HL s).toNat)
    ∨ (∃ a16, i = .ld_atA16_SP a16 ∧ (a = a16.toNat ∨ a = a16.toNat + 1))

/-- R28 and log entry 3: no instruction reads or writes `run`, and none writes the parameters: in a state that differs only in
`run`, each instruction has the same outcome but for `run`. -/
def Obligations.NoInstructionSeesTheRunStatus : Prop :=
  ∀ (i : Instr) (s : State) (c : Fault),
    (∀ t, exec i s = .next t → sameRunAndParams s t ∧ exec i (s.markFaulted c) = .next (t.markFaulted c))
    ∧ (∀ d, exec i s = .fault d → exec i (s.markFaulted c) = .fault d)

/-- R53 (derived by the spec): a store is seen by the very next fetches and not by its own. A step at `LD (HL),d8`, whatever HL is,
stores the byte as it was fetched. With HL at the next opcode byte, the next step fetches the stored byte and runs the
instruction it decodes to with the bytes after it, or faults where its operands lie above memory. With HL at the first byte after
the next opcode, the next step takes the stored byte as its first operand or prefixed opcode. (No wrap: decision D3, log entry 7;
what the fault records: decision D6, log entry 14; canonical memory: log entry 19; byte 0x36 is tier G, decision D1, log entry 4.) -/
def Obligations.StoreIsSeenByTheNextFetch : Prop :=
  ∀ s : State, s.run = .running → s.mem.wf → s.pc + 1 ≤ 0xFFFF → s.mem.read s.pc = 0x36 →
    s.params.assignsPrimary 0x36 = true → ∀ stored : Byte, stored = s.mem.read (s.pc + 1) →
    ∃ t, step s = .next t ∧ t.pc = s.pc + 2 ∧ Frame [] [(readReg .HL s).toNat] s t
      ∧ t.mem.read (readReg .HL s).toNat = stored
      ∧ ((readReg .HL s).toNat = s.pc + 2 → ∀ k, k = operandCount s.params stored →
        (s.pc + 2 + k ≤ 0xFFFF →
          fetchInstr t = .ok (stored :: s.mem.bytesAt (s.pc + 3) k, t.setPc (s.pc + 2 + k))
          ∧ ∃ i, decodePrimary s.params (stored :: s.mem.bytesAt (s.pc + 3) k) = .ok (i, [])
            ∧ step t = outerAdvance (exec i (t.setPc (s.pc + 2 + k))))
        ∧ (0xFFFF < s.pc + 2 + k → step t = .fault (.outOfBounds 0x10000)))
      ∧ ((readReg .HL s).toNat = s.pc + 3 → ∀ k, operandCount s.params (s.mem.read (s.pc + 2)) = k + 1 →
        s.pc + 3 + k ≤ 0xFFFF →
          fetchInstr t = .ok (s.mem.read (s.pc + 2) :: stored :: s.mem.bytesAt (s.pc + 4) k, t.setPc (s.pc + 3 + k))
          ∧ ∃ i, decodePrimary s.params (s.mem.read (s.pc + 2) :: stored :: s.mem.bytesAt (s.pc + 4) k) = .ok (i, [])
            ∧ step t = outerAdvance (exec i (t.setPc (s.pc + 3 + k))))

/-! ### Pairs -/

/-- R12: each pair is a view of its two halves, not separate storage: it reads `(high << 8) | low`, the first-named register high;
its bytes are the two halves' own adjacent bytes, the high one at the lower index; writing either half or the pair is seen in
the other. -/
def Obligations.PairsAreViewsOfTheirHalves : Prop :=
  ∀ p ∈ [(RegName.A, RegName.F, RegName.AF), (.B, .C, .BC), (.D, .E, .DE), (.H, .L, .HL)], ∀ (v : Word) (s : State),
    readReg p.2.2 s = (readReg p.1 s <<< 8) ||| readReg p.2.1 s
    ∧ p.2.2.bytes = [p.1.loIndex, p.2.1.loIndex] ∧ p.2.1.loIndex.val = p.1.loIndex.val + 1
    ∧ readReg p.2.2 (writeReg p.1 v s) = ((v &&& 0xFF) <<< 8) ||| readReg p.2.1 s
    ∧ readReg p.2.2 (writeReg p.2.1 v s) = (readReg p.1 s <<< 8) ||| (v &&& 0xFF)
    ∧ readReg p.1 (writeReg p.2.2 v s) = v >>> 8
    ∧ readReg p.2.1 (writeReg p.2.2 v s) = v &&& 0xFF
end

