-- ==== Sys2Proof/Laws/Memory.lean ====
section
/-! SUPPORT. The laws of memory (rules R40, R41 of 20_memory.md) and of its canonical form (log entry 19). -/

namespace Sys2Proof.Machine.Memory

/-- A store leaves every other address alone. -/
theorem read_write_of_ne (m : Memory) {a a' : Nat} (b : Byte) (h : a' ≠ a) : (m.write a b).read a' = m.read a' := by
  induction m with
  | nil =>
    simp only [write]
    split
    · rfl
    · simp [read, h.symm]
  | cons c m ih =>
    simp only [write]
    split
    · split
      · rfl
      · rw [read, if_neg h.symm]
    · split
      · next hac =>
        subst hac
        split
        · rw [read, if_neg h.symm]
        · rw [read, if_neg h.symm, read, if_neg h.symm]
      · rw [read, ih, read]

/-- An address below every listed one reads as unlisted. -/
theorem read_of_lt (m : Memory) {a : Nat} (h : ∀ c ∈ m, a < c.1) : m.read a = memBackground := by
  induction m with
  | nil => rfl
  | cons c m ih =>
    have hc := h c List.mem_cons_self
    rw [read, if_neg (by omega)]
    exact ih fun d hd => h d (List.mem_cons_of_mem _ hd)

/-- A read after a store to the same address gives the byte stored. -/
theorem read_write_self {m : Memory} (hm : m.wf) (a : Nat) (b : Byte) : (m.write a b).read a = b := by
  induction m with
  | nil =>
    simp only [write]
    split
    · next hb => rw [hb]; rfl
    · simp [read]
  | cons c m ih =>
    have hp := List.pairwise_cons.mp hm.1
    simp only [write]
    split
    · next hac =>
      split
      · next hb =>
        rw [hb]
        refine read_of_lt _ fun d hd => ?_
        rcases List.mem_cons.mp hd with rfl | hd
        · exact hac
        · exact lt_trans hac (hp.1 d hd)
      · simp [read]
    · split
      · next hac =>
        split
        · next hb =>
          rw [hb]
          exact read_of_lt _ fun d hd => hac ▸ hp.1 d hd
        · simp [read]
      · next hne =>
        rw [read, if_neg (Ne.symm hne)]
        exact ih ⟨hp.2, fun d hd => hm.2 d (List.mem_cons_of_mem _ hd)⟩

/-- The addresses a store leaves listed. -/
theorem mem_write {m : Memory} {a : Nat} {b : Byte} {d : Host.Cell} (h : d ∈ m.write a b) :
    d ∈ m ∨ (d = (a, b) ∧ b ≠ memBackground) := by
  induction m with
  | nil =>
    simp only [write] at h
    split at h
    · cases h
    · next hb => exact .inr ⟨List.mem_singleton.mp h, hb⟩
  | cons c m ih =>
    simp only [write] at h
    split at h
    · split at h
      · exact .inl h
      · next hb =>
        rcases List.mem_cons.mp h with h | h
        · exact .inr ⟨h, hb⟩
        · exact .inl h
    · split at h
      · split at h
        · exact .inl (List.mem_cons_of_mem _ h)
        · next hb =>
          rcases List.mem_cons.mp h with h | h
          · exact .inr ⟨h, hb⟩
          · exact .inl (List.mem_cons_of_mem _ h)
      · rcases List.mem_cons.mp h with h | h
        · exact .inl (h ▸ List.mem_cons_self)
        · rcases ih h with h | h
          · exact .inl (List.mem_cons_of_mem _ h)
          · exact .inr h

/-- A store keeps the addresses strictly rising. -/
theorem pairwise_write {m : Memory} (hm : m.Pairwise fun c d => c.1 < d.1) (a : Nat) (b : Byte) :
    (m.write a b).Pairwise fun c d => c.1 < d.1 := by
  induction m with
  | nil =>
    simp only [write]
    split
    · exact List.Pairwise.nil
    · exact List.pairwise_singleton _ _
  | cons c m ih =>
    have hp := List.pairwise_cons.mp hm
    simp only [write]
    split
    · next hac =>
      split
      · exact hm
      · refine List.pairwise_cons.mpr ⟨fun d hd => ?_, hm⟩
        rcases List.mem_cons.mp hd with rfl | hd
        · exact hac
        · exact lt_trans hac (hp.1 d hd)
    · next hge =>
      split
      · next hac =>
        split
        · exact hp.2
        · exact List.pairwise_cons.mpr ⟨fun d hd => hac ▸ hp.1 d hd, hp.2⟩
      · next hne =>
        refine List.pairwise_cons.mpr ⟨fun d hd => ?_, ih hp.2⟩
        rcases mem_write hd with hd | ⟨rfl, -⟩
        · exact hp.1 d hd
        · show c.1 < a
          omega

/-- A store inside the address space keeps the canonical form. -/
theorem wf_write {m : Memory} (hm : m.wf) {a : Nat} (ha : a < memSize) (b : Byte) : (m.write a b).wf := by
  refine ⟨pairwise_write hm.1 a b, fun d hd => ?_⟩
  rcases mem_write hd with hd | ⟨rfl, hb⟩
  · exact hm.2 d hd
  · exact ⟨ha, hb⟩

/-- Placing a program keeps the canonical form. -/
theorem wf_place {m : Memory} (hm : m.wf) (bs : List Byte) : ∀ addr, (m.place addr bs).wf := by
  induction bs generalizing m with
  | nil => exact fun _ => hm
  | cons b bs ih =>
    intro addr
    rw [place]
    split
    · next h => exact ih (wf_write hm h b) _
    · exact ih hm _

theorem wf_nil : wf [] := ⟨List.Pairwise.nil, fun _ h => by cases h⟩

/-- A canonical memory reads at a listed address the byte listed. -/
theorem read_of_mem {m : Memory} (hm : m.Pairwise fun c d => c.1 < d.1) {a : Nat} {b : Byte} (h : (a, b) ∈ m) :
    m.read a = b := by
  induction m with
  | nil => cases h
  | cons c m ih =>
    have hp := List.pairwise_cons.mp hm
    rcases List.mem_cons.mp h with rfl | h
    · simp [read]
    · have : c.1 < a := hp.1 _ h
      rw [read, if_neg (by omega)]
      exact ih hp.2 h

/-- An address that is not listed reads as `memBackground`. -/
theorem read_of_notMem {m : Memory} {a : Nat} (h : ∀ c ∈ m, c.1 ≠ a) : m.read a = memBackground := by
  induction m with
  | nil => rfl
  | cons c m ih =>
    rw [read, if_neg (h c List.mem_cons_self)]
    exact ih fun d hd => h d (List.mem_cons_of_mem _ hd)

theorem mem_ofFunctionFrom (f : Nat → Byte) (c : Host.Cell) (n : Nat) : ∀ addr,
    c ∈ ofFunctionFrom f addr n ↔ addr ≤ c.1 ∧ c.1 < addr + n ∧ f c.1 ≠ memBackground ∧ c.2 = f c.1 := by
  induction n with
  | zero => intro addr; simp only [ofFunctionFrom, List.not_mem_nil, false_iff]; omega
  | succ n ih =>
    intro addr
    rw [ofFunctionFrom]
    split
    · next hf =>
      rw [ih (addr + 1)]
      constructor
      · rintro ⟨h1, h2, h3⟩
        exact ⟨by omega, by omega, h3⟩
      · rintro ⟨h1, h2, h3⟩
        have : c.1 ≠ addr := fun e => h3.1 (e ▸ hf)
        exact ⟨by omega, by omega, h3⟩
    · next hf =>
      rw [List.mem_cons, ih (addr + 1)]
      constructor
      · rintro (rfl | ⟨h1, h2, h3⟩)
        · exact ⟨le_refl _, Nat.lt_add_of_pos_right (Nat.succ_pos n), hf, rfl⟩
        · exact ⟨by omega, by omega, h3⟩
      · rintro ⟨h1, h2, h3⟩
        by_cases e : c.1 = addr
        · exact .inl (Prod.ext e (by rw [h3.2, e]))
        · exact .inr ⟨by omega, by omega, h3⟩

theorem mem_ofFunction (f : Nat → Byte) (c : Host.Cell) :
    c ∈ ofFunction f ↔ c.1 < memSize ∧ f c.1 ≠ memBackground ∧ c.2 = f c.1 := by
  rw [ofFunction, mem_ofFunctionFrom]
  simp only [Nat.zero_le, Nat.zero_add, true_and]

theorem pairwise_ofFunctionFrom (f : Nat → Byte) (n : Nat) : ∀ addr,
    (ofFunctionFrom f addr n).Pairwise fun c d => c.1 < d.1 := by
  induction n with
  | zero => exact fun _ => List.Pairwise.nil
  | succ n ih =>
    intro addr
    rw [ofFunctionFrom]
    split
    · exact ih _
    · exact List.pairwise_cons.mpr ⟨fun d hd => ((mem_ofFunctionFrom f d n (addr + 1)).mp hd).1, ih _⟩

theorem wf_ofFunction (f : Nat → Byte) : (ofFunction f).wf := by
  refine ⟨pairwise_ofFunctionFrom f memSize 0, fun c hc => ?_⟩
  have := (mem_ofFunction f c).mp hc
  exact ⟨this.1, this.2.2 ▸ this.2.1⟩

/-- The image that is `memBackground` everywhere lists nothing. -/
theorem ofFunction_eq_nil {f : Nat → Byte} (h : ∀ a, f a = memBackground) : ofFunction f = [] :=
  List.eq_nil_iff_forall_not_mem.mpr fun c hc => ((mem_ofFunction f c).mp hc).2.1 (h c.1)

/-- A memory built from a function holds its values, and nothing above the address space. -/
theorem read_ofFunction (f : Nat → Byte) (a : Nat) :
    (ofFunction f).read a = if a < memSize then f a else memBackground := by
  by_cases h : a < memSize ∧ f a ≠ memBackground
  · rw [if_pos h.1]
    exact read_of_mem (wf_ofFunction f).1 ((mem_ofFunction f (a, f a)).mpr ⟨h.1, h.2, rfl⟩)
  · have hn : (ofFunction f).read a = memBackground := by
      refine read_of_notMem fun c hc e => h ?_
      have := (mem_ofFunction f c).mp hc
      rw [e] at this
      exact ⟨this.1, this.2.1⟩
    rw [hn]
    split
    · next ha => exact (not_not.mp fun hf => h ⟨ha, hf⟩).symm
    · rfl

end Sys2Proof.Machine.Memory
end

