-- ==== Sys2Proof/Laws/State.lean ====
section
/-! SUPPORT. One lemma per field per update of the state, and the laws of the register file and of the flags
(rules R14 to R18 of 10_state.md). -/

namespace Sys2Proof.Machine

/-! ### Fields of updated states -/

@[simp] theorem rfByte_setPc (s : State) (v : Nat) (i : Fin 10) : (s.setPc v).rfByte i = s.rfByte i := rfl
@[simp] theorem pc_setPc (s : State) (v : Nat) : (s.setPc v).pc = v := rfl
@[simp] theorem mem_setPc (s : State) (v : Nat) : (s.setPc v).mem = s.mem := rfl
@[simp] theorem run_setPc (s : State) (v : Nat) : (s.setPc v).run = s.run := rfl
@[simp] theorem params_setPc (s : State) (v : Nat) : (s.setPc v).params = s.params := rfl
@[simp] theorem setPc_setPc (s : State) (v w : Nat) : (s.setPc v).setPc w = s.setPc w := rfl
@[simp] theorem setPc_self (s : State) : s.setPc s.pc = s := rfl

@[simp] theorem rfByte_setMem (s : State) (m : Memory) (i : Fin 10) : (s.setMem m).rfByte i = s.rfByte i := rfl
@[simp] theorem pc_setMem (s : State) (m : Memory) : (s.setMem m).pc = s.pc := rfl
@[simp] theorem mem_setMem (s : State) (m : Memory) : (s.setMem m).mem = m := rfl
@[simp] theorem run_setMem (s : State) (m : Memory) : (s.setMem m).run = s.run := rfl
@[simp] theorem params_setMem (s : State) (m : Memory) : (s.setMem m).params = s.params := rfl

theorem rfByte_setRfByte (s : State) (i j : Fin 10) (b : Byte) :
    (s.setRfByte i b).rfByte j = if j = i then b else s.rfByte j := by
  simp only [State.rfByte, State.setRfByte, Fin.getElem_fin, Vector.getElem_set, Fin.ext_iff, eq_comm]

@[simp] theorem pc_setRfByte (s : State) (i : Fin 10) (b : Byte) : (s.setRfByte i b).pc = s.pc := rfl
@[simp] theorem mem_setRfByte (s : State) (i : Fin 10) (b : Byte) : (s.setRfByte i b).mem = s.mem := rfl
@[simp] theorem run_setRfByte (s : State) (i : Fin 10) (b : Byte) : (s.setRfByte i b).run = s.run := rfl
@[simp] theorem params_setRfByte (s : State) (i : Fin 10) (b : Byte) : (s.setRfByte i b).params = s.params := rfl

@[simp] theorem run_markFaulted (s : State) (c : Fault) : (s.markFaulted c).run = .faulted c := rfl

@[simp] theorem rfByte_construct (p : Params) (f : Nat → Byte) (i : Fin 10) : (State.construct p f).rfByte i = 0x00 := by
  fin_cases i <;> rfl
@[simp] theorem pc_construct (p : Params) (f : Nat → Byte) : (State.construct p f).pc = 0 := rfl
@[simp] theorem mem_construct (p : Params) (f : Nat → Byte) : (State.construct p f).mem = Memory.ofFunction f := rfl
@[simp] theorem run_construct (p : Params) (f : Nat → Byte) : (State.construct p f).run = .running := rfl
@[simp] theorem params_construct (p : Params) (f : Nat → Byte) : (State.construct p f).params = p := rfl

/-- Two states are the same when their ten register bytes and their other fields are. -/
theorem State.ext_fields {s t : State} (hr : ∀ i, s.rfByte i = t.rfByte i) (hp : s.pc = t.pc) (hm : s.mem = t.mem)
    (hrun : s.run = t.run) (hpar : s.params = t.params) : s = t := by
  cases s; cases t
  simp only [State.rfByte, Fin.getElem_fin] at *
  simp only [State.mk.injEq]
  exact ⟨Vector.ext fun i hi => hr ⟨i, hi⟩, hp, hm, hrun, hpar⟩

/-! ### Bytes and words -/

/-- `{a, b} = a*256 + b` (R7). -/
theorem joinBytes_toNat (hi lo : Byte) : (joinBytes hi lo).toNat = hi.toNat * 256 + lo.toNat := by
  have := hi.isLt
  have := lo.isLt
  simp only [joinBytes, BitVec.toNat_ofNat]
  omega

theorem loByte_toNat (w : Word) : (loByte w).toNat = w.toNat % 256 := by
  simp [loByte, BitVec.extractLsb'_toNat]

theorem hiByte_toNat (w : Word) : (hiByte w).toNat = w.toNat / 256 := by
  have := w.isLt
  simp only [hiByte, BitVec.extractLsb'_toNat, Nat.shiftRight_eq_div_pow]
  omega

@[simp] theorem loByte_zext16 (b : Byte) : loByte (zext16 b) = b := by
  have := b.isLt
  apply BitVec.eq_of_toNat_eq
  rw [loByte_toNat, zext16, BitVec.toNat_setWidth]
  omega

@[simp] theorem loByte_joinBytes (hi lo : Byte) : loByte (joinBytes hi lo) = lo := by
  have := lo.isLt
  apply BitVec.eq_of_toNat_eq
  rw [loByte_toNat, joinBytes_toNat]
  omega

@[simp] theorem hiByte_joinBytes (hi lo : Byte) : hiByte (joinBytes hi lo) = hi := by
  have := lo.isLt
  apply BitVec.eq_of_toNat_eq
  rw [hiByte_toNat, joinBytes_toNat]
  omega

@[simp] theorem joinBytes_hi_lo (w : Word) : joinBytes (hiByte w) (loByte w) = w := by
  apply BitVec.eq_of_toNat_eq
  rw [joinBytes_toNat, hiByte_toNat, loByte_toNat]
  omega

/-! ### The register file -/

/-- Everything `writeReg` does to the register file: the low byte, the high byte of a pair or SP, nothing else. -/
theorem rfByte_writeReg (n : RegName) (v : Word) (s : State) (i : Fin 10) :
    (writeReg n v s).rfByte i =
      if i = n.loIndex then loByte v else if n.hiIndex = some i then hiByte v else s.rfByte i := by
  cases n <;> simp only [writeReg, RegName.hiIndex, RegName.loIndex, rfByte_setRfByte, reduceCtorEq, if_false,
    Option.some.injEq, eq_comm (b := i)]

@[simp] theorem pc_writeReg (n : RegName) (v : Word) (s : State) : (writeReg n v s).pc = s.pc := by
  cases n <;> rfl
@[simp] theorem mem_writeReg (n : RegName) (v : Word) (s : State) : (writeReg n v s).mem = s.mem := by
  cases n <;> rfl
@[simp] theorem run_writeReg (n : RegName) (v : Word) (s : State) : (writeReg n v s).run = s.run := by
  cases n <;> rfl
@[simp] theorem params_writeReg (n : RegName) (v : Word) (s : State) : (writeReg n v s).params = s.params := by
  cases n <;> rfl

/-- A byte no part of the register named is not written. -/
theorem rfByte_writeReg_of_notMem {n : RegName} {i : Fin 10} (h : i ∉ n.bytes) (v : Word) (s : State) :
    (writeReg n v s).rfByte i = s.rfByte i := by
  simp only [RegName.bytes, List.mem_append, Option.mem_toList, List.mem_singleton, not_or] at h
  rw [rfByte_writeReg, if_neg h.2, if_neg (fun e => h.1 e)]

/-- A register reads only the bytes its name covers. -/
theorem readReg_congr {n : RegName} {s t : State} (h : ∀ i ∈ n.bytes, t.rfByte i = s.rfByte i) :
    readReg n t = readReg n s := by
  cases n <;> simp_all [readReg, RegName.bytes, RegName.hiIndex, RegName.loIndex]

@[simp] theorem readReg_setPc (n : RegName) (s : State) (v : Nat) : readReg n (s.setPc v) = readReg n s :=
  readReg_congr fun _ _ => rfl
@[simp] theorem readReg_setMem (n : RegName) (s : State) (m : Memory) : readReg n (s.setMem m) = readReg n s :=
  readReg_congr fun _ _ => rfl

/-- Writing a register and reading it back (R16, laws 1 and 2). -/
theorem readReg_writeReg_self (n : RegName) (v : Word) (s : State) :
    readReg n (writeReg n v s) = match n.hiIndex with
      | none => zext16 (loByte v)
      | some _ => v := by
  cases n <;> simp [readReg, RegName.hiIndex, RegName.loIndex, rfByte_writeReg]

/-- Reading an 8-bit register back gives the low byte written (R16, law 2), as a number. -/
theorem toNat_readReg_writeReg {n : RegName} (h : n.hiIndex = none) (v : Word) (s : State) :
    (readReg n (writeReg n v s)).toNat = v.toNat % 256 := by
  rw [readReg_writeReg_self, h]
  simp only [zext16, BitVec.toNat_setWidth, loByte_toNat]
  omega

/-- An 8-bit register reads below 256 (R14). -/
theorem readReg_lt {n : RegName} (h : n.hiIndex = none) (s : State) : (readReg n s).toNat < 256 := by
  have hb := (s.rfByte n.loIndex).isLt
  simp only [readReg, h, zext16, BitVec.toNat_setWidth]
  omega

/-- Bit `j` of F as a register is bit `j` of its backing byte. -/
theorem getLsbD_readReg_F (s : State) (j : Nat) :
    (readReg .F s).getLsbD j = (s.rfByte RegName.F.loIndex).getLsbD j := by
  simp only [readReg, RegName.hiIndex, zext16, BitVec.getLsbD_setWidth]
  by_cases h : j < 16
  · simp [h]
  · simp [h, BitVec.getLsbD_of_ge _ _ (show 8 ≤ j by omega)]

/-! ### Flags -/

/-- Setting one bit changes exactly that bit (R18). -/
theorem getLsbD_setBit (f : Byte) {i : Nat} (hi : i < 8) (b : Bool) (j : Nat) :
    (setBit f i b).getLsbD j = if j = i then b else f.getLsbD j := by
  by_cases hj : j < 8
  · interval_cases i <;> interval_cases j <;> cases b <;> simp [setBit]
  · have hne : j ≠ i := by omega
    simp [hne, BitVec.getLsbD_of_ge _ _ (Nat.le_of_not_lt hj)]

theorem FlagName.bitIndex_lt (x : FlagName) : x.bitIndex < 8 := by cases x <;> decide

theorem rfByte_setFlag (x : FlagName) (b : Bool) (s : State) (i : Fin 10) :
    (setFlag x b s).rfByte i = if i = RegName.F.loIndex then setBit (s.rfByte RegName.F.loIndex) x.bitIndex b else s.rfByte i :=
  rfByte_setRfByte _ _ _ _

theorem rfByte_setFlag_of_ne (x : FlagName) (b : Bool) (s : State) {i : Fin 10} (h : i ≠ RegName.F.loIndex) :
    (setFlag x b s).rfByte i = s.rfByte i := by
  rw [rfByte_setFlag, if_neg h]

/-- Bit `j` of F after one flag is set (R18). -/
theorem fBit_setFlag (x : FlagName) (b : Bool) (s : State) (j : Nat) :
    ((setFlag x b s).rfByte RegName.F.loIndex).getLsbD j
      = if j = x.bitIndex then b else (s.rfByte RegName.F.loIndex).getLsbD j := by
  rw [rfByte_setFlag, if_pos rfl, getLsbD_setBit _ x.bitIndex_lt]

@[simp] theorem pc_setFlag (x : FlagName) (b : Bool) (s : State) : (setFlag x b s).pc = s.pc := rfl
@[simp] theorem mem_setFlag (x : FlagName) (b : Bool) (s : State) : (setFlag x b s).mem = s.mem := rfl
@[simp] theorem run_setFlag (x : FlagName) (b : Bool) (s : State) : (setFlag x b s).run = s.run := rfl
@[simp] theorem params_setFlag (x : FlagName) (b : Bool) (s : State) : (setFlag x b s).params = s.params := rfl

/-- Reading a flag after setting one. -/
theorem getFlag_setFlag (x y : FlagName) (b : Bool) (s : State) :
    getFlag x (setFlag y b s) = if x = y then b else getFlag x s := by
  simp only [getFlag, fBit_setFlag]
  cases x <;> cases y <;> rfl

/-- `XOR r` leaves F = 0x80 or 0x00 (R110). -/
theorem rfByte_xorFlags (res : Byte) (s : State) (i : Fin 10) :
    (xorFlags res s).rfByte i
      = if i = RegName.F.loIndex then (if res = 0x00 then 0x80 else 0x00) else s.rfByte i := by
  simp only [xorFlags, clearFlags, rfByte_setFlag, rfByte_setRfByte, if_true]
  split
  · by_cases h : res = 0x00
    · subst h; rfl
    · rw [if_neg h, beq_false_of_ne h]; rfl
  · rfl

@[simp] theorem pc_xorFlags (res : Byte) (s : State) : (xorFlags res s).pc = s.pc := rfl
@[simp] theorem mem_xorFlags (res : Byte) (s : State) : (xorFlags res s).mem = s.mem := rfl
@[simp] theorem run_xorFlags (res : Byte) (s : State) : (xorFlags res s).run = s.run := rfl
@[simp] theorem params_xorFlags (res : Byte) (s : State) : (xorFlags res s).params = s.params := rfl

/-- Bit `j` of F after `BIT b,r` (R115): Z, N and H written, C and F[3:0] kept. -/
theorem fBit_bitFlags (tested : Bool) (s : State) (j : Nat) :
    ((bitFlags tested s).rfByte RegName.F.loIndex).getLsbD j
      = if j = 5 then true else if j = 6 then false else if j = 7 then !tested
        else (s.rfByte RegName.F.loIndex).getLsbD j := by
  simp only [bitFlags, fBit_setFlag, FlagName.bitIndex]
  rfl

theorem rfByte_bitFlags_of_ne (tested : Bool) (s : State) {i : Fin 10} (h : i ≠ RegName.F.loIndex) :
    (bitFlags tested s).rfByte i = s.rfByte i := by
  simp only [bitFlags, rfByte_setFlag_of_ne _ _ _ h]

@[simp] theorem pc_bitFlags (tested : Bool) (s : State) : (bitFlags tested s).pc = s.pc := rfl
@[simp] theorem mem_bitFlags (tested : Bool) (s : State) : (bitFlags tested s).mem = s.mem := rfl
@[simp] theorem run_bitFlags (tested : Bool) (s : State) : (bitFlags tested s).run = s.run := rfl
@[simp] theorem params_bitFlags (tested : Bool) (s : State) : (bitFlags tested s).params = s.params := rfl

end Sys2Proof.Machine
end

