-- ==== Sys2Proof/Laws/Ops.lean ====
section
/-! SUPPORT. One lemma per shared operation that says everything it can do. -/

namespace Sys2Proof.Machine

/-! ### Memory access (R41) -/

theorem memRead_of_lt {a : Nat} (h : a < memSize) (s : State) : memRead a s = .ok (s.mem.read a) := if_pos h
theorem memRead_of_ge {a : Nat} (h : memSize ≤ a) (s : State) : memRead a s = .error (.outOfBounds a) :=
  if_neg (Nat.not_lt.mpr h)
theorem memWrite_of_lt {a : Nat} (h : a < memSize) (b : Byte) (s : State) :
    memWrite a b s = .ok (s.setMem (s.mem.write a b)) := if_pos h
theorem memWrite_of_ge {a : Nat} (h : memSize ≤ a) (b : Byte) (s : State) :
    memWrite a b s = .error (.outOfBounds a) := if_neg (Nat.not_lt.mpr h)

/-- A register-held address is always inside memory (R131). -/
theorem regAddress_lt (n : RegName) (s : State) : regAddress n s < memSize := (readReg n s).isLt

theorem absAddress_lt (a16 : Word) : absAddress a16 < memSize := a16.isLt

/-! ### Handlers that always complete -/

theorem storeImm8_eq (addr : RegName) (b : Byte) (s : State) :
    storeImm8 addr b s = .ok (s.setMem (s.mem.write (regAddress addr s) b)) :=
  memWrite_of_lt (regAddress_lt addr s) b s

theorem storeMem_eq (addr src : RegName) (s : State) :
    storeMem addr src s = .ok (s.setMem (s.mem.write (regAddress addr s) (storedByte src s))) :=
  memWrite_of_lt (regAddress_lt addr s) _ s

theorem loadMem_eq (dst addr : RegName) (s : State) :
    loadMem dst addr s = .ok (writeReg dst (dataByte (s.mem.read (regAddress addr s))) s) := by
  rw [loadMem, memRead_of_lt (regAddress_lt addr s)]
  rfl

/-! ### `LD (a16),SP` (R96) -/

theorem storeSp_of_lt {a16 : Word} (h : absAddress a16 + 1 < memSize) (s : State) :
    storeSp a16 s = .ok (s.setMem ((s.mem.write (absAddress a16) (loByte (readReg .SP s))).write (absAddress a16 + 1)
      (hiByte (readReg .SP s)))) := by
  rw [storeSp, memWrite_of_lt (absAddress_lt a16)]
  exact memWrite_of_lt h _ _

theorem storeSp_top (s : State) : storeSp 0xFFFF s = .error (.outOfBounds memSize) := by
  rw [storeSp, memWrite_of_lt (absAddress_lt _)]
  simp only [bind, Except.bind]
  rw [memWrite_of_ge (by decide)]
  rfl

/-! ### `AddrStep` (R107) -/

/-- The 16-bit result of the +1 / -1, out of range modulo 65536. -/
def stepped (dir : StepDir) (v : Word) : Word :=
  match dir with
  | .increment => v + 1
  | .decrement => v - 1

/-- The +1 / -1 leaves 0..0xFFFF. -/
def stepOverflows (dir : StepDir) (v : Word) : Prop :=
  match dir with
  | .increment => v = 0xFFFF
  | .decrement => v = 0x0000

theorem addrStep_eq (n : RegName) (dir : StepDir) (s : State) :
    (¬ (stepOverflows dir (readReg n s) ∧ s.params.seOverflow = .fault) ∧
      addrStep n dir s = .ok (writeReg n (stepped dir (readReg n s)) s)) ∨
    (stepOverflows dir (readReg n s) ∧ s.params.seOverflow = .fault ∧
      addrStep n dir s = .error (.addrRegOverflow n (readReg n s))) := by
  cases dir with
  | increment =>
    simp only [addrStep, stepOverflows, stepped]
    by_cases h : readReg n s = 0xFFFF
    · rw [h]
      cases hp : s.params.seOverflow <;> simp
    · have hlt := (readReg n s).isLt
      have hne : (readReg n s).toNat ≠ 0xFFFF := fun e => h (BitVec.eq_of_toNat_eq e)
      left
      refine ⟨fun e => h e.1, ?_⟩
      rw [if_pos (by simp only [decide_eq_true_eq]; omega)]
  | decrement =>
    simp only [addrStep, stepOverflows, stepped]
    by_cases h : readReg n s = 0x0000
    · rw [h]
      cases hp : s.params.seOverflow <;> simp
    · have hne : (readReg n s).toNat ≠ 0 := fun e => h (BitVec.eq_of_toNat_eq e)
      left
      refine ⟨fun e => h e.1, ?_⟩
      rw [if_pos (by simp only [decide_eq_true_eq]; omega)]

/-! ### Outcomes -/

@[simp] theorem finish_ok (t : State) : finish (.ok t) = .next t := rfl
@[simp] theorem finish_error (c : Fault) : finish (.error c) = .fault c := rfl
@[simp] theorem outerAdvance_next (t : State) : outerAdvance (.next t) = .next (t.setPc (t.pc + 1)) := rfl
@[simp] theorem outerAdvance_fault (c : Fault) : outerAdvance (.fault c) = .fault c := rfl
@[simp] theorem outerAdvance_refused (r : Refusal) : outerAdvance (.refused r) = .refused r := rfl

theorem finish_eq_next {r : Except Fault State} {t : State} (h : finish r = .next t) : r = .ok t := by
  cases r with
  | ok u => cases h; rfl
  | error c => cases h

theorem finish_eq_fault {r : Except Fault State} {c : Fault} (h : finish r = .fault c) : r = .error c := by
  cases r with
  | ok u => cases h
  | error d => cases h; rfl

end Sys2Proof.Machine
end

