-- ==== Sys2Proof/Laws/Category.lean ====
section
/-! SUPPORT. The closed list of instruction categories (rules R65, R66 of 30_encoding.md): `exec` of any of the 153
constructors is the handler of its category, so a fact about every instruction needs one case per category. -/

namespace Sys2Proof.Machine

/-- The handler categories with the registers they work on. -/
inductive Category where
  | nop
  | loadImm16 (dst : RegName) (v : Word)
  | loadImm8 (dst : RegName) (b : Byte)
  | loadReg (dst src : RegName)
  | storeImm8 (addr : RegName) (b : Byte)
  | storeSp (a16 : Word)
  | loadMem (dst addr : RegName)
  | loadMemStep (addr : RegName) (dir : StepDir)
  | storeMem (addr src : RegName)
  | storeMemStep (addr : RegName) (dir : StepDir)
  | xor (r : RegName)
  | bit (b : Fin 8) (r : RegName)
  | jump (x : FlagName) (d : Byte)
deriving DecidableEq, Repr

/-- The shared handler of a category. -/
def Category.run : Category → State → Except Fault State
  | .nop => noOperation
  | .loadImm16 dst v => Machine.loadImm16 dst v
  | .loadImm8 dst b => Machine.loadImm8 dst b
  | .loadReg dst src => Machine.loadReg dst src
  | .storeImm8 addr b => Machine.storeImm8 addr b
  | .storeSp a16 => Machine.storeSp a16
  | .loadMem dst addr => Machine.loadMem dst addr
  | .loadMemStep addr dir => Machine.loadMemStep addr dir
  | .storeMem addr src => Machine.storeMem addr src
  | .storeMemStep addr dir => Machine.storeMemStep addr dir
  | .xor r => xorAccumulator r
  | .bit b r => bitTest b r
  | .jump x d => jumpIfClear x d

/-- The register a bit test names. -/
def bitRegName : BitReg → RegName
  | .B => .B | .C => .C | .D => .D | .E => .E | .H => .H | .L => .L | .A => .A

/-- The category of a prefixed variant. -/
def prefixedCategory : Prefixed → Category
  | .bit b r => .bit b (bitRegName r)
  | .nop _ => .nop

/-- The category of each instruction; that of the prefix is that of the prefixed instruction it enters. -/
def category (p : Params) : Instr → Category
  | .nop _ => .nop
  | .ld_BC_d16 v => .loadImm16 .BC v
  | .ld_DE_d16 v => .loadImm16 .DE v
  | .ld_HL_d16 v => .loadImm16 .HL v
  | .ld_SP_d16 v => .loadImm16 .SP v
  | .ld_B_d8 b => .loadImm8 .B b
  | .ld_C_d8 b => .loadImm8 .C b
  | .ld_D_d8 b => .loadImm8 .D b
  | .ld_E_d8 b => .loadImm8 .E b
  | .ld_H_d8 b => .loadImm8 .H b
  | .ld_L_d8 b => .loadImm8 .L b
  | .ld_A_d8 b => .loadImm8 .A b
  | .ld_B_B => .loadReg .B .B
  | .ld_B_C => .loadReg .B .C
  | .ld_B_D => .loadReg .B .D
  | .ld_B_E => .loadReg .B .E
  | .ld_B_H => .loadReg .B .H
  | .ld_B_L => .loadReg .B .L
  | .ld_B_A => .loadReg .B .A
  | .ld_C_B => .loadReg .C .B
  | .ld_C_C => .loadReg .C .C
  | .ld_C_D => .loadReg .C .D
  | .ld_C_E => .loadReg .C .E
  | .ld_C_H => .loadReg .C .H
  | .ld_C_L => .loadReg .C .L
  | .ld_C_A => .loadReg .C .A
  | .ld_D_B => .loadReg .D .B
  | .ld_D_C => .loadReg .D .C
  | .ld_D_D => .loadReg .D .D
  | .ld_D_E => .loadReg .D .E
  | .ld_D_H => .loadReg .D .H
  | .ld_D_L => .loadReg .D .L
  | .ld_D_A => .loadReg .D .A
  | .ld_E_B => .loadReg .E .B
  | .ld_E_C => .loadReg .E .C
  | .ld_E_D => .loadReg .E .D
  | .ld_E_E => .loadReg .E .E
  | .ld_E_H => .loadReg .E .H
  | .ld_E_L => .loadReg .E .L
  | .ld_E_A => .loadReg .E .A
  | .ld_H_B => .loadReg .H .B
  | .ld_H_C => .loadReg .H .C
  | .ld_H_D => .loadReg .H .D
  | .ld_H_E => .loadReg .H .E
  | .ld_H_H => .loadReg .H .H
  | .ld_H_L => .loadReg .H .L
  | .ld_H_A => .loadReg .H .A
  | .ld_L_B => .loadReg .L .B
  | .ld_L_C => .loadReg .L .C
  | .ld_L_D => .loadReg .L .D
  | .ld_L_E => .loadReg .L .E
  | .ld_L_H => .loadReg .L .H
  | .ld_L_L => .loadReg .L .L
  | .ld_L_A => .loadReg .L .A
  | .ld_A_B => .loadReg .A .B
  | .ld_A_C => .loadReg .A .C
  | .ld_A_D => .loadReg .A .D
  | .ld_A_E => .loadReg .A .E
  | .ld_A_H => .loadReg .A .H
  | .ld_A_L => .loadReg .A .L
  | .ld_A_A => .loadReg .A .A
  | .ld_SP_HL => .loadReg .SP .HL
  | .ld_atHL_d8 b => .storeImm8 .HL b
  | .ld_atA16_SP addr => .storeSp addr
  | .ld_A_atBC => .loadMem .A .BC
  | .ld_A_atDE => .loadMem .A .DE
  | .ld_B_atHL => .loadMem .B .HL
  | .ld_C_atHL => .loadMem .C .HL
  | .ld_D_atHL => .loadMem .D .HL
  | .ld_E_atHL => .loadMem .E .HL
  | .ld_H_atHL => .loadMem .H .HL
  | .ld_L_atHL => .loadMem .L .HL
  | .ld_A_atHL => .loadMem .A .HL
  | .ld_A_atHLinc => .loadMemStep .HL .increment
  | .ld_A_atHLdec => .loadMemStep .HL .decrement
  | .ld_atBC_A => .storeMem .BC .A
  | .ld_atDE_A => .storeMem .DE .A
  | .ld_atHL_B => .storeMem .HL .B
  | .ld_atHL_C => .storeMem .HL .C
  | .ld_atHL_D => .storeMem .HL .D
  | .ld_atHL_E => .storeMem .HL .E
  | .ld_atHL_H => .storeMem .HL .H
  | .ld_atHL_L => .storeMem .HL .L
  | .ld_atHL_A => .storeMem .HL .A
  | .ld_atHLinc_A => .storeMemStep .HL .increment
  | .ld_atHLdec_A => .storeMemStep .HL .decrement
  | .xor_B => .xor .B
  | .xor_C => .xor .C
  | .xor_D => .xor .D
  | .xor_E => .xor .E
  | .xor_H => .xor .H
  | .xor_L => .xor .L
  | .xor_A => .xor .A
  | .jr_NZ_d8 d => .jump .Z d
  | .jr_NC_d8 d => .jump .C d
  | .prefixCb op2 => prefixedCategory (decodeSecondary p op2)
  | .bit_0_B => .bit 0 .B
  | .bit_0_C => .bit 0 .C
  | .bit_0_D => .bit 0 .D
  | .bit_0_E => .bit 0 .E
  | .bit_0_H => .bit 0 .H
  | .bit_0_L => .bit 0 .L
  | .bit_0_A => .bit 0 .A
  | .bit_1_B => .bit 1 .B
  | .bit_1_C => .bit 1 .C
  | .bit_1_D => .bit 1 .D
  | .bit_1_E => .bit 1 .E
  | .bit_1_H => .bit 1 .H
  | .bit_1_L => .bit 1 .L
  | .bit_1_A => .bit 1 .A
  | .bit_2_B => .bit 2 .B
  | .bit_2_C => .bit 2 .C
  | .bit_2_D => .bit 2 .D
  | .bit_2_E => .bit 2 .E
  | .bit_2_H => .bit 2 .H
  | .bit_2_L => .bit 2 .L
  | .bit_2_A => .bit 2 .A
  | .bit_3_B => .bit 3 .B
  | .bit_3_C => .bit 3 .C
  | .bit_3_D => .bit 3 .D
  | .bit_3_E => .bit 3 .E
  | .bit_3_H => .bit 3 .H
  | .bit_3_L => .bit 3 .L
  | .bit_3_A => .bit 3 .A
  | .bit_4_B => .bit 4 .B
  | .bit_4_C => .bit 4 .C
  | .bit_4_D => .bit 4 .D
  | .bit_4_E => .bit 4 .E
  | .bit_4_H => .bit 4 .H
  | .bit_4_L => .bit 4 .L
  | .bit_4_A => .bit 4 .A
  | .bit_5_B => .bit 5 .B
  | .bit_5_C => .bit 5 .C
  | .bit_5_D => .bit 5 .D
  | .bit_5_E => .bit 5 .E
  | .bit_5_H => .bit 5 .H
  | .bit_5_L => .bit 5 .L
  | .bit_5_A => .bit 5 .A
  | .bit_6_B => .bit 6 .B
  | .bit_6_C => .bit 6 .C
  | .bit_6_D => .bit 6 .D
  | .bit_6_E => .bit 6 .E
  | .bit_6_H => .bit 6 .H
  | .bit_6_L => .bit 6 .L
  | .bit_6_A => .bit 6 .A
  | .bit_7_B => .bit 7 .B
  | .bit_7_C => .bit 7 .C
  | .bit_7_D => .bit 7 .D
  | .bit_7_E => .bit 7 .E
  | .bit_7_H => .bit 7 .H
  | .bit_7_L => .bit 7 .L
  | .bit_7_A => .bit 7 .A
  | .nopCb _ => .nop

theorem executePrefixed_eq (i : Prefixed) (s : State) :
    executePrefixed i s = finish ((prefixedCategory i).run s) := by
  cases i with
  | nop op => rfl
  | bit b r => fin_cases b <;> cases r <;> rfl

/-- `exec` is the handler of the instruction's category. -/
theorem exec_eq (i : Instr) (s : State) : exec i s = finish ((category s.params i).run s) := by
  cases i with
  | prefixCb op2 => exact executePrefixed_eq _ s
  | _ => rfl

/-- The category of a prefixed variant is that of the instruction it stands for. -/
theorem category_toInstr (p : Params) (i : Prefixed) : category p i.toInstr = prefixedCategory i := by
  cases i with
  | nop op => rfl
  | bit b r => fin_cases b <;> cases r <;> rfl

/-- Looking the prefix up does not change what runs. -/
theorem exec_resolvePrefix (i : Instr) (s : State) : exec (resolvePrefix s.params i) s = exec i s := by
  cases i with
  | prefixCb op2 =>
    rw [exec_eq, exec_eq]
    exact congrArg (fun c => finish (Category.run c s)) (category_toInstr _ _)
  | _ => rfl

/-! ### What a handler can do -/

/-- The register bytes a category may write. -/
def Category.regs : Category → List (Fin 10)
  | .nop | .storeImm8 _ _ | .storeSp _ | .storeMem _ _ | .jump _ _ => []
  | .loadImm16 dst _ | .loadImm8 dst _ | .loadReg dst _ | .loadMem dst _ => dst.bytes
  | .loadMemStep addr _ => RegName.A.bytes ++ addr.bytes
  | .storeMemStep addr _ => addr.bytes
  | .xor _ => RegName.A.bytes ++ RegName.F.bytes
  | .bit _ _ => RegName.F.bytes

/-- The memory bytes a category stores to. -/
def Category.stored (s : State) : Category → List Nat
  | .storeImm8 addr _ | .storeMem addr _ | .storeMemStep addr _ => [regAddress addr s]
  | .storeSp a16 => [absAddress a16, absAddress a16 + 1]
  | _ => []

/-- The state a category completes in, when it completes. -/
def Category.result (s : State) : Category → State
  | .nop => s
  | .loadImm16 dst v => writeReg dst v s
  | .loadImm8 dst b => writeReg dst (dataByte b) s
  | .loadReg dst src => writeReg dst (readReg src s) s
  | .storeImm8 addr b => s.setMem (s.mem.write (regAddress addr s) b)
  | .storeSp a16 => s.setMem ((s.mem.write (absAddress a16) (loByte (readReg .SP s))).write (absAddress a16 + 1)
      (hiByte (readReg .SP s)))
  | .loadMem dst addr => writeReg dst (dataByte (s.mem.read (regAddress addr s))) s
  | .loadMemStep addr dir =>
    let t := writeReg .A (dataByte (s.mem.read (regAddress addr s))) s
    writeReg addr (stepped dir (readReg addr t)) t
  | .storeMem addr src => s.setMem (s.mem.write (regAddress addr s) (storedByte src s))
  | .storeMemStep addr dir =>
    let t := s.setMem (s.mem.write (regAddress addr s) (storedByte .A s))
    writeReg addr (stepped dir (readReg addr t)) t
  | .xor r => xorFlags (loByte (readReg .A s ^^^ readReg r s)) (writeReg .A (readReg .A s ^^^ readReg r s) s)
  | .bit b r => bitFlags (regBit b r s) s
  | .jump x d => if getFlag x s = false then s.setPc (jumpTarget s.pc d) else s

/-- The fault a category raises in `s`, if it raises one. -/
def Category.FaultsAs (s : State) (c : Fault) : Category → Prop
  | .storeSp a16 => a16 = 0xFFFF ∧ c = .outOfBounds memSize
  | .loadMemStep addr dir =>
    let t := writeReg .A (dataByte (s.mem.read (regAddress addr s))) s
    stepOverflows dir (readReg addr t) ∧ s.params.seOverflow = .fault ∧ c = .addrRegOverflow addr (readReg addr t)
  | .storeMemStep addr dir =>
    stepOverflows dir (readReg addr s) ∧ s.params.seOverflow = .fault ∧ c = .addrRegOverflow addr (readReg addr s)
  | _ => False

/-- Everything a handler can do: it completes in `result`, or it raises the fault of its category. -/
theorem Category.run_cases (k : Category) (s : State) :
    (k.run s = .ok (k.result s) ∧ ∀ c, ¬ k.FaultsAs s c) ∨ (∃ c, k.run s = .error c ∧ k.FaultsAs s c) := by
  cases k with
  | nop => exact .inl ⟨rfl, fun _ => id⟩
  | loadImm16 => exact .inl ⟨rfl, fun _ => id⟩
  | loadImm8 => exact .inl ⟨rfl, fun _ => id⟩
  | loadReg => exact .inl ⟨rfl, fun _ => id⟩
  | storeImm8 addr b => exact .inl ⟨storeImm8_eq addr b s, fun _ => id⟩
  | storeSp a16 =>
    by_cases h : a16 = 0xFFFF
    · subst h
      exact .inr ⟨_, storeSp_top s, rfl, rfl⟩
    · refine .inl ⟨storeSp_of_lt ?_ s, fun _ hf => h hf.1⟩
      have hne : a16.toNat ≠ 0xFFFF := fun e => h (BitVec.eq_of_toNat_eq e)
      have := a16.isLt
      simp only [absAddress, memSize]
      omega
  | loadMem dst addr => exact .inl ⟨loadMem_eq dst addr s, fun _ => id⟩
  | loadMemStep addr dir =>
    have hrun : (Category.loadMemStep addr dir).run s = addrStep addr dir _ :=
      congrArg (· >>= addrStep addr dir) (loadMem_eq .A addr s)
    rw [hrun]
    rcases addrStep_eq addr dir (writeReg .A (dataByte (s.mem.read (regAddress addr s))) s) with ⟨hn, h⟩ | ⟨ho, hp, h⟩
    · exact .inl ⟨h, fun c hf => hn ⟨hf.1, by simpa using hf.2.1⟩⟩
    · exact .inr ⟨_, h, ho, by simpa using hp, rfl⟩
  | storeMem addr src => exact .inl ⟨storeMem_eq addr src s, fun _ => id⟩
  | storeMemStep addr dir =>
    have hrun : (Category.storeMemStep addr dir).run s = addrStep addr dir _ :=
      congrArg (· >>= addrStep addr dir) (storeMem_eq addr .A s)
    rw [hrun]
    rcases addrStep_eq addr dir (s.setMem (s.mem.write (regAddress addr s) (storedByte .A s))) with ⟨hn, h⟩ | ⟨ho, hp, h⟩
    · exact .inl ⟨h, fun c hf => hn ⟨by simpa using hf.1, hf.2.1⟩⟩
    · exact .inr ⟨_, h, by simpa using ho, hp, by simp⟩
  | xor => exact .inl ⟨rfl, fun _ => id⟩
  | bit => exact .inl ⟨rfl, fun _ => id⟩
  | jump x d =>
    refine .inl ⟨?_, fun _ => id⟩
    simp only [run, result, jumpIfClear]
    split <;> rfl

/-- A handler that completes does so in `result`. -/
theorem Category.eq_result {k : Category} {s t : State} (h : k.run s = .ok t) :
    t = k.result s ∧ ∀ c, ¬ k.FaultsAs s c := by
  rcases k.run_cases s with ⟨h', hf⟩ | ⟨c, h', -⟩ <;> rw [h'] at h <;> cases h
  exact ⟨rfl, hf⟩

/-- The frame of every category. -/
theorem Category.result_frame (k : Category) (s : State) : Frame k.regs (k.stored s) s (k.result s) := by
  have write2 : ∀ (m : Memory) (a a' x : Nat) (b b' : Byte), x ∉ [a, a'] → ((m.write a b).write a' b').read x = m.read x := by
    intro m a a' x b b' h
    simp only [List.mem_cons, List.not_mem_nil, or_false, not_or] at h
    rw [Memory.read_write_of_ne _ _ h.2, Memory.read_write_of_ne _ _ h.1]
  have write1 : ∀ (m : Memory) (a x : Nat) (b : Byte), x ∉ [a] → (m.write a b).read x = m.read x := by
    intro m a x b h
    exact Memory.read_write_of_ne _ _ (by simpa using h)
  cases k with
  | nop => exact ⟨fun _ _ => rfl, fun _ _ => rfl, rfl, rfl⟩
  | loadImm16 dst v => exact ⟨fun _ h => rfByte_writeReg_of_notMem h _ _, fun _ _ => by simp [result], by simp [result], by simp [result]⟩
  | loadImm8 dst b => exact ⟨fun _ h => rfByte_writeReg_of_notMem h _ _, fun _ _ => by simp [result], by simp [result], by simp [result]⟩
  | loadReg dst src => exact ⟨fun _ h => rfByte_writeReg_of_notMem h _ _, fun _ _ => by simp [result], by simp [result], by simp [result]⟩
  | storeImm8 addr b => exact ⟨fun _ _ => rfl, fun _ h => write1 _ _ _ _ h, rfl, rfl⟩
  | storeSp a16 => exact ⟨fun _ _ => rfl, fun _ h => write2 _ _ _ _ _ _ h, rfl, rfl⟩
  | loadMem dst addr => exact ⟨fun _ h => rfByte_writeReg_of_notMem h _ _, fun _ _ => by simp [result], by simp [result], by simp [result]⟩
  | loadMemStep addr dir =>
    refine ⟨fun i h => ?_, fun _ _ => by simp [result], by simp [result], by simp [result]⟩
    simp only [regs, List.mem_append, not_or] at h
    simp only [result]
    rw [rfByte_writeReg_of_notMem h.2, rfByte_writeReg_of_notMem h.1]
  | storeMem addr src => exact ⟨fun _ _ => rfl, fun _ h => write1 _ _ _ _ h, rfl, rfl⟩
  | storeMemStep addr dir =>
    refine ⟨fun i h => ?_, fun x h => ?_, by simp [result], by simp [result]⟩
    · simp only [result]
      rw [rfByte_writeReg_of_notMem h]
      rfl
    · simp only [result, mem_writeReg, mem_setMem]
      exact write1 _ _ _ _ h
  | xor r =>
    refine ⟨fun i h => ?_, fun _ _ => by simp [result], by simp [result], by simp [result]⟩
    simp only [regs, List.mem_append, not_or] at h
    simp only [result]
    rw [rfByte_xorFlags, if_neg (by simpa [RegName.bytes, RegName.hiIndex] using h.2), rfByte_writeReg_of_notMem h.1]
  | bit b r =>
    refine ⟨fun i h => ?_, fun _ _ => by simp [result], by simp [result], by simp [result]⟩
    exact rfByte_bitFlags_of_ne _ _ (by simpa [regs, RegName.bytes, RegName.hiIndex] using h)
  | jump x d =>
    simp only [result]
    split <;> exact ⟨fun _ _ => rfl, fun _ _ => rfl, rfl, rfl⟩

/-- The program counter after a handler: only the taken jump moves it. -/
theorem Category.result_pc (k : Category) (s : State) :
    (k.result s).pc = match k with
      | .jump x d => if getFlag x s = false then jumpTarget s.pc d else s.pc
      | _ => s.pc := by
  cases k <;> simp only [result, pc_writeReg, pc_setMem, pc_xorFlags, pc_bitFlags]
  split <;> rfl

/-- A handler keeps memory canonical. -/
theorem Category.result_wf {k : Category} {s : State} (h : k.run s = .ok (k.result s)) (hm : s.mem.wf) :
    (k.result s).mem.wf := by
  have hf := (Category.eq_result h).2
  cases k <;> simp only [result, mem_writeReg, mem_setMem, mem_xorFlags, mem_bitFlags] <;>
    try first | exact hm | exact Memory.wf_write hm (regAddress_lt _ _) _
  case storeSp a16 =>
    refine Memory.wf_write (Memory.wf_write hm (absAddress_lt _) _) ?_ _
    have hne : a16.toNat ≠ 0xFFFF := fun e => hf _ ⟨BitVec.eq_of_toNat_eq e, rfl⟩
    have := a16.isLt
    simp only [absAddress, memSize]
    omega
  case jump x d => split <;> exact hm

/-- No instruction but `XOR r` and `BIT b,r` has F among the bytes it writes (R20, R30). -/
theorem fByte_notMem_regs (p : Params) (i : Instr) :
    fByte ∉ (category p i).regs ∨ (∃ r, category p i = .xor r) ∨ (∃ b r, category p i = .bit b r) := by
  have hpre : ∀ q : Prefixed, fByte ∉ (prefixedCategory q).regs ∨ (∃ r, prefixedCategory q = .xor r)
      ∨ (∃ b r, prefixedCategory q = .bit b r) := by
    intro q
    cases q with
    | nop => exact .inl (by simp only [prefixedCategory, Category.regs]; decide)
    | bit b r => exact .inr (.inr ⟨b, bitRegName r, rfl⟩)
  cases i with
  | prefixCb op2 => exact hpre _
  | _ => first | exact .inl (by simp only [category, Category.regs]; decide) | exact .inr (.inl ⟨_, rfl⟩) | exact .inr (.inr ⟨_, _, rfl⟩)

/-! ### `exec` by category -/

/-- An instruction whose category raises no fault in `s` completes in the category's result. -/
theorem exec_result {i : Instr} {s : State} (h : ∀ c, ¬ (category s.params i).FaultsAs s c) :
    exec i s = .next ((category s.params i).result s) := by
  rw [exec_eq]
  rcases (category s.params i).run_cases s with ⟨h', -⟩ | ⟨c, -, hc⟩
  · rw [h', finish_ok]
  · exact absurd hc (h c)

/-- An instruction that completes did so in the category's result, and its category raises no fault there. -/
theorem exec_next {i : Instr} {s t : State} (h : exec i s = .next t) :
    t = (category s.params i).result s ∧ ∀ c, ¬ (category s.params i).FaultsAs s c := by
  rw [exec_eq] at h
  exact Category.eq_result (finish_eq_next h)

/-- A category raises at most one fault in a state. -/
theorem Category.FaultsAs.unique {k : Category} {s : State} {c d : Fault} (h : k.FaultsAs s c) (h' : k.FaultsAs s d) :
    c = d := by
  cases k <;> simp only [FaultsAs] at h h'
  · rw [h.2, h'.2]
  · rw [h.2.2, h'.2.2]
  · rw [h.2.2, h'.2.2]

/-- An instruction faults exactly as its category does. -/
theorem exec_fault_iff {i : Instr} {s : State} {c : Fault} :
    exec i s = .fault c ↔ (category s.params i).FaultsAs s c := by
  rw [exec_eq]
  rcases (category s.params i).run_cases s with ⟨h', hn⟩ | ⟨d, h', hd⟩ <;> rw [h']
  · exact ⟨fun h => by simp at h, fun h => absurd h (hn c)⟩
  · rw [finish_error]
    exact ⟨fun h => by cases h; exact hd, fun h => congrArg _ (hd.unique h)⟩

end Sys2Proof.Machine
end

