-- ==== Sys2Proof/Laws/Decode.lean ====
section
/-! SUPPORT. The laws of the two decode tables (rules R60 to R73 of 30_encoding.md). -/

namespace Sys2Proof

/-- The operand bytes a form asks for (R61). -/
def OpcodeForm.count : OpcodeForm → Nat
  | .op _  => 0
  | .d8 _  => 1
  | .d16 _ => 2

/-- A form that is the no-op of this byte. -/
def OpcodeForm.isNop (op : Byte) : OpcodeForm → Bool
  | .op (.nop b) => b == op
  | _ => false

/-- A property of a byte is a property of its two hexadecimal digits. -/
theorem byte_cases {P : Byte → Prop} (h : ∀ hi lo : Fin 16, P (BitVec.ofNat 8 (16 * hi.val + lo.val))) (b : Byte) : P b := by
  have hb := b.isLt
  have := h ⟨b.toNat / 16, by omega⟩ ⟨b.toNat % 16, by omega⟩
  rwa [show 16 * (b.toNat / 16) + b.toNat % 16 = b.toNat from by omega, BitVec.ofNat_toNat, BitVec.setWidth_eq] at this

/-- The primary map is a no-op exactly at the bytes of tier U and at 0x00 (R69). -/
theorem primaryMap_isNop (op : Byte) : (primaryMap op).isNop op = !(tierSPrimary op || tierGPrimary op) := by
  revert op
  apply byte_cases
  decide

/-- The secondary map is a no-op exactly at the bytes of tier U (R69). -/
theorem secondaryMap_isNop (op : Byte) :
    (secondaryMap op == .nop op) = !(tierSSecondary op || tierGSecondary op) := by
  revert op
  apply byte_cases
  decide

theorem OpcodeForm.eq_nop {f : OpcodeForm} {op : Byte} (h : f.isNop op = true) : f = .op (.nop op) := by
  unfold isNop at h
  split at h
  · rw [eq_of_beq h]
  · cases h

/-- A byte the parameters do not assign is NOP (R69, R73). -/
theorem primaryForm_of_unassigned {p : Params} {op : Byte} (h : p.assignsPrimary op = false) :
    primaryForm p op = .op (.nop op) := by
  simp only [Params.assignsPrimary, Bool.or_eq_false_iff, Bool.and_eq_false_iff, Bool.not_eq_false'] at h
  unfold primaryForm
  split
  · rfl
  · next hl =>
    refine OpcodeForm.eq_nop ?_
    rw [primaryMap_isNop, h.1]
    rcases h.2 with hg | hg
    · rw [hg]; rfl
    · exact absurd (by rw [hg, h.1]; rfl) hl

/-- A byte the parameters assign has its entry of the grid (R71). -/
theorem primaryForm_of_assigned {p : Params} {op : Byte} (h : p.assignsPrimary op = true) :
    primaryForm p op = primaryMap op := by
  unfold primaryForm
  rw [if_neg]
  intro hl
  simp only [Params.assignsPrimary, Bool.or_eq_true, Bool.and_eq_true, Bool.not_eq_true'] at h hl
  rcases h with h | h
  · rw [hl.2] at h; cases h
  · rw [hl.1] at h; cases h.2

theorem decodeSecondary_of_unassigned {p : Params} {op : Byte} (h : p.assignsSecondary op = false) :
    decodeSecondary p op = .nop op := by
  simp only [Params.assignsSecondary, Bool.or_eq_false_iff, Bool.and_eq_false_iff, Bool.not_eq_false'] at h
  unfold decodeSecondary
  split
  · rfl
  · next hl =>
    refine eq_of_beq ?_
    rw [secondaryMap_isNop, h.1]
    rcases h.2 with hg | hg
    · rw [hg]; rfl
    · exact absurd (by rw [hg, h.1]; rfl) hl

theorem decodeSecondary_of_assigned {p : Params} {op : Byte} (h : p.assignsSecondary op = true) :
    decodeSecondary p op = secondaryMap op := by
  unfold decodeSecondary
  rw [if_neg]
  intro hl
  simp only [Params.assignsSecondary, Bool.or_eq_true, Bool.and_eq_true, Bool.not_eq_true'] at h hl
  rcases h with h | h
  · rw [hl.2] at h; cases h
  · rw [hl.1] at h; cases h.2

theorem operandCount_eq (p : Params) (op : Byte) : operandCount p op = (primaryForm p op).count := by
  unfold operandCount OpcodeForm.count
  cases primaryForm p op <;> rfl

theorem decodePrimary_of_form {p : Params} {op : Byte} {f : OpcodeForm} (h : primaryForm p op = f) (bs : List Byte) :
    decodePrimary p (op :: bs) = f.read op bs := h ▸ rfl

/-- The whole decoder on a prefixed instruction (R85): 0xCB is the prefix under all parameters. -/
theorem decode_cb (p : Params) (op : Byte) (bs : List Byte) :
    decode p (0xCB :: op :: bs) = .ok ((decodeSecondary p op).toInstr, bs) := by
  have h : decodePrimary p (0xCB :: op :: bs) = .ok (.prefixCb op, bs) :=
    decodePrimary_of_form (f := .d8 .prefixCb) (primaryForm_of_assigned rfl) _
  simp only [decode, h, resolvePrefix]

/-- The tiers do not overlap (R67, R68). -/
theorem tierSPrimary_of_tierG {op : Byte} : tierGPrimary op = true → tierSPrimary op = false := by
  revert op
  apply byte_cases
  decide

theorem tierSSecondary_of_tierG {op : Byte} : tierGSecondary op = true → tierSSecondary op = false := by
  revert op
  apply byte_cases
  decide

/-- Decoding an opcode byte and exactly the operand bytes it asks for gives an instruction and leaves nothing (R65). -/
theorem decodePrimary_exact (p : Params) (op : Byte) (bs : List Byte) (h : bs.length = operandCount p op) :
    ∃ i, decodePrimary p (op :: bs) = .ok (i, []) := by
  rw [operandCount_eq] at h
  rw [decodePrimary]
  cases hf : primaryForm p op with
  | op i =>
    rw [hf] at h
    obtain rfl := List.eq_nil_of_length_eq_zero h
    exact ⟨i, rfl⟩
  | d8 mk =>
    rw [hf] at h
    obtain ⟨b, rfl⟩ := List.length_eq_one_iff.mp h
    exact ⟨mk b, rfl⟩
  | d16 mk =>
    rw [hf] at h
    obtain ⟨lo, hi, rfl⟩ := List.length_eq_two.mp h
    exact ⟨mk (joinBytes hi lo), rfl⟩

/-- What decoding an opcode byte and any list can give, by the form of the opcode. -/
theorem decodePrimary_ok {p : Params} {op : Byte} {bs rest : List Byte} {i : Instr}
    (h : decodePrimary p (op :: bs) = .ok (i, rest)) :
    (primaryForm p op = .op i ∧ bs = rest)
    ∨ (∃ mk b, primaryForm p op = .d8 mk ∧ i = mk b ∧ bs = b :: rest)
    ∨ (∃ mk lo hi, primaryForm p op = .d16 mk ∧ i = mk (joinBytes hi lo) ∧ bs = lo :: hi :: rest) := by
  rw [decodePrimary] at h
  cases hf : primaryForm p op with
  | op j => rw [hf] at h; cases h; exact .inl ⟨rfl, rfl⟩
  | d8 mk =>
    rw [hf] at h
    cases bs with
    | nil => cases h
    | cons b bs => cases h; exact .inr (.inl ⟨mk, b, rfl, rfl, rfl⟩)
  | d16 mk =>
    rw [hf] at h
    match bs, h with
    | lo :: hi :: bs, h => cases h; exact .inr (.inr ⟨mk, lo, hi, rfl, rfl, rfl⟩)

end Sys2Proof
end

