-- ==== Sys2Proof/Laws/Step.lean ====
section
/-! SUPPORT. What one step can do (rules R80 to R88 of 40_step_nop_prefix.md), said once. -/

namespace Sys2Proof.Machine

open Sys2Proof

@[simp] theorem Memory.length_bytesAt (m : Memory) (n : Nat) : ∀ addr, (m.bytesAt addr n).length = n := by
  induction n with
  | zero => exact fun _ => rfl
  | succ n ih => exact fun addr => congrArg (· + 1) (ih (addr + 1))

/-- An operand fetch inside memory (R82). -/
theorem fetchOperand_of_lt {s : State} (h : s.pc + 1 < memSize) :
    fetchOperand s = .ok (s.mem.read (s.pc + 1), s.setPc (s.pc + 1)) := by
  simp only [fetchOperand, pc_setPc, memRead_of_lt h]
  rfl

theorem fetchOperand_of_ge {s : State} (h : memSize ≤ s.pc + 1) :
    fetchOperand s = .error (.outOfBounds (s.pc + 1)) := by
  simp only [fetchOperand, pc_setPc, memRead_of_ge h]
  rfl

/-- The operand fetches of an instruction whose bytes all lie inside memory. -/
theorem fetchOperands_of_lt (k : Nat) : ∀ s : State, s.pc + k < memSize →
    fetchOperands k s = .ok (s.mem.bytesAt (s.pc + 1) k, s.setPc (s.pc + k)) := by
  induction k with
  | zero => exact fun _ _ => rfl
  | succ k ih =>
    intro s h
    have ht := ih (s.setPc (s.pc + 1)) (by simp only [pc_setPc]; omega)
    simp only [pc_setPc, mem_setPc, setPc_setPc] at ht
    simp only [fetchOperands, bind, Except.bind, fetchOperand_of_lt (s := s) (by omega), ht]
    rw [show s.pc + 1 + k = s.pc + (k + 1) from by omega]
    rfl

/-- The first operand byte above memory is the one at 0x10000 (R131). -/
theorem fetchOperands_of_ge (k : Nat) : ∀ s : State, s.pc < memSize → memSize ≤ s.pc + k →
    fetchOperands k s = .error (.outOfBounds memSize) := by
  induction k with
  | zero => intro s h h'; omega
  | succ k ih =>
    intro s h h'
    by_cases hlt : s.pc + 1 < memSize
    · have ht := ih (s.setPc (s.pc + 1)) hlt (by simp only [pc_setPc]; omega)
      simp only [fetchOperands, bind, Except.bind, fetchOperand_of_lt hlt, ht]
    · have he : s.pc + 1 = memSize := by omega
      simp only [fetchOperands, bind, Except.bind, fetchOperand_of_ge (Nat.le_of_not_lt hlt), he]

/-- How many operand bytes the instruction at `pc` has. -/
def State.operandsAt (s : State) : Nat := operandCount s.params s.opcodeAt

theorem fetchInstr_of_ge {s : State} (h : memSize ≤ s.pc) : fetchInstr s = .error (.outOfBounds s.pc) := by
  simp only [fetchInstr, bind, Except.bind, memRead_of_ge h]

theorem fetchInstr_of_operand_ge {s : State} (h : s.pc < memSize) (h' : memSize ≤ s.pc + s.operandsAt) :
    fetchInstr s = .error (.outOfBounds memSize) := by
  have := fetchOperands_of_ge s.operandsAt s h h'
  simp only [State.operandsAt, State.opcodeAt] at this
  simp only [fetchInstr, bind, Except.bind, memRead_of_lt h, this]

theorem fetchInstr_of_lt {s : State} (h : s.pc + s.operandsAt < memSize) :
    fetchInstr s = .ok (s.mem.bytesAt s.pc (s.operandsAt + 1), s.setPc (s.pc + s.operandsAt)) := by
  have := fetchOperands_of_lt s.operandsAt s h
  simp only [State.operandsAt, State.opcodeAt] at this
  simp only [fetchInstr, bind, Except.bind, memRead_of_lt (show s.pc < memSize by omega), this]
  rfl

/-- A step of a running core: the opcode fetch faults, an operand fetch faults, or the decoded instruction is executed with `pc`
at its last byte and the outer advance follows. No step is refused for its bytes. -/
theorem step_running {s : State} (hr : s.run = .running) :
    (memSize ≤ s.pc ∧ step s = .fault (.outOfBounds s.pc))
    ∨ (s.pc < memSize ∧ memSize ≤ s.pc + s.operandsAt ∧ step s = .fault (.outOfBounds memSize))
    ∨ (s.pc + s.operandsAt < memSize ∧ ∃ i,
        decodePrimary s.params (s.mem.bytesAt s.pc (s.operandsAt + 1)) = .ok (i, [])
        ∧ step s = outerAdvance (exec i (s.setPc (s.pc + s.operandsAt)))) := by
  by_cases h : memSize ≤ s.pc
  · refine .inl ⟨h, ?_⟩
    simp only [step, hr, fetchInstr_of_ge h]
    rfl
  · by_cases h' : memSize ≤ s.pc + s.operandsAt
    · refine .inr (.inl ⟨Nat.lt_of_not_le h, h', ?_⟩)
      simp only [step, hr, fetchInstr_of_operand_ge (Nat.lt_of_not_le h) h']
      rfl
    · have hlt := Nat.lt_of_not_le h'
      obtain ⟨i, hi⟩ := decodePrimary_exact s.params s.opcodeAt (s.mem.bytesAt (s.pc + 1) s.operandsAt) (by simp [State.operandsAt])
      refine .inr (.inr ⟨hlt, i, hi, ?_⟩)
      have hi' : decodePrimary (s.setPc (s.pc + s.operandsAt)).params (s.mem.bytesAt s.pc (s.operandsAt + 1)) = .ok (i, []) := hi
      simp only [step, hr, fetchInstr_of_lt hlt, hi']

/-- A step of a faulted core is refused (R132). -/
theorem step_faulted {s : State} {c : Fault} (h : s.run = .faulted c) : step s = .refused (.stepWhileFaulted c) := by
  simp only [step, h]

/-- What a completed step did: the instruction at `pc` ran its handler to `result`, then the outer advance. -/
theorem step_next {s u : State} (h : step s = .next u) :
    s.run = .running ∧ s.pc + s.operandsAt < memSize ∧ ∃ i,
      decodePrimary s.params (s.mem.bytesAt s.pc (s.operandsAt + 1)) = .ok (i, [])
      ∧ (category s.params i).run (s.setPc (s.pc + s.operandsAt))
          = .ok ((category s.params i).result (s.setPc (s.pc + s.operandsAt)))
      ∧ u = ((category s.params i).result (s.setPc (s.pc + s.operandsAt))).setPc
          (((category s.params i).result (s.setPc (s.pc + s.operandsAt))).pc + 1) := by
  cases hr : s.run with
  | faulted c => rw [step_faulted hr] at h; cases h
  | running =>
    rcases step_running hr with ⟨-, h'⟩ | ⟨-, -, h'⟩ | ⟨hlt, i, hi, h'⟩ <;> rw [h'] at h
    · cases h
    · cases h
    · refine ⟨rfl, hlt, i, hi, ?_⟩
      rw [exec_eq] at h
      rcases (category s.params i).run_cases (s.setPc (s.pc + s.operandsAt)) with ⟨hk, -⟩ | ⟨c, hk, -⟩
      · refine ⟨hk, ?_⟩
        simp only [params_setPc, hk, finish_ok, outerAdvance_next] at h
        cases h; rfl
      · simp only [params_setPc, hk, finish_error, outerAdvance_fault] at h
        cases h

/-! ### Runs of several steps -/

theorem run_succ_of_next (M : Host.Core) {k : Nat} {s t : M.State} (h : M.step s = .next t) :
    M.run (k + 1) s = M.run k t := by
  simp only [Host.Core.run, h]

theorem run_succ_of_fault (M : Host.Core) {k : Nat} {s : M.State} {c : M.Fault} (h : M.step s = .fault c) :
    M.run (k + 1) s = .fault c := by
  simp only [Host.Core.run, h]

end Sys2Proof.Machine
end

