-- ==== Sys2Proof/Tests/Slice0.lean ====
section
/-! SUPPORT. The model's own tests: ill-formed terms refused, one word of every constructor, single steps whose results are the
spec's test vectors (95_test_vectors.md, V1 to V71), and a witness for every statement that has premises. -/

namespace Sys2Proof.Tests

open Sys2Proof Sys2Proof.Machine

/-! ### Helpers -/

/-- A running core with default parameters: registers written in order, bytes placed at each address given. -/
def coreAt (pc : Nat) (regs : List (RegName × Word)) (bytes : List (Nat × List Byte)) : State :=
  let m : Memory := bytes.foldl (fun m c => Memory.place m c.1 c.2) []
  regs.foldl (fun s p => writeReg p.1 p.2 s) ((State.reset.setPc pc).setMem m)

/-- The same core with `SE_OVERFLOW = Wrap`. -/
def wrapping (s : State) : State := { s with params := ⟨.wrap, [], []⟩ }

/-- The step completes with this `pc`, these register values and these memory bytes. -/
def ends (s : State) (pc : Nat) (regs : List (RegName × Word)) (bytes : List (Nat × Byte)) : Bool :=
  match step s with
  | .next t => t.pc == pc && regs.all (fun p => readReg p.1 t == p.2) && bytes.all (fun c => t.mem.read c.1 == c.2)
      && t.run == .running
  | _ => false

/-- The step ends in the fatal fault with this cause. -/
def faults (s : State) (c : Fault) : Bool :=
  match step s with
  | .fault d => c == d
  | _ => false

/-- The step completes. -/
def completes (s : State) : Bool :=
  match step s with
  | .next _ => true
  | _ => false

/-- Every pair of opcode byte and instruction: the byte, with operand bytes 0x34 0x12 after it, decodes to the instruction. -/
def decodesAs (l : List (Byte × Instr)) : Bool :=
  l.all fun p => match decode defaultParams [p.1, 0x34, 0x12] with
    | .ok (i, _) => i == p.2
    | .error _ => false

/-- The same after the prefix byte 0xCB. -/
def decodesAsPrefixed (l : List (Byte × Instr)) : Bool :=
  l.all fun p => match decode defaultParams [0xCB, p.1] with
    | .ok (i, _) => i == p.2
    | .error _ => false

/-! ### WellFormed: ill-formed terms are refused (R67, R73) -/

theorem test_wf_nop_at_assigned_bytes : [0x20, 0x31, 0xAF, 0xCB].all (fun b => !(Instr.nop b).wf) = true := by decide
theorem test_wf_nopCb_at_assigned_byte : (Instr.nopCb 0x7C).wf = false := by decide
theorem test_wf_accepts : ((Instr.nop 0x00).wf && (Instr.nopCb 0x00).wf && Instr.bit_7_H.wf) = true := by decide
theorem test_inMap_refuses_nop_at_tier_g : ((Instr.nop 0x40).inMap defaultParams, (Instr.nop 0x40).wf) = (false, true) := by decide

/-! ### Decoding: every constructor, its opcode byte written out from the encoding rules (R67, R68, R70) -/

/-- NOP (R84): 0x00, and unassigned bytes 0x76, 0xC3, 0xFF (R69). -/
theorem test_decode_nop : decodesAs
    [(0b00000000, .nop 0x00), (0b01110110, .nop 0x76), (0b11000011, .nop 0xC3), (0b11111111, .nop 0xFF)] = true := by decide

/-- `LD rr,d16`: 00 rr 0001, low byte first (R91, R63). -/
theorem test_decode_ld_imm16 : decodesAs
    [(0b00000001, .ld_BC_d16 0x1234), (0b00010001, .ld_DE_d16 0x1234), (0b00100001, .ld_HL_d16 0x1234), (0b00110001, .ld_SP_d16 0x1234)] = true := by decide

/-- `LD r,d8`: 00 r 110 (R92). -/
theorem test_decode_ld_imm8 : decodesAs
    [(0b00000110, .ld_B_d8 0x34), (0b00001110, .ld_C_d8 0x34), (0b00010110, .ld_D_d8 0x34), (0b00011110, .ld_E_d8 0x34),
     (0b00100110, .ld_H_d8 0x34), (0b00101110, .ld_L_d8 0x34), (0b00111110, .ld_A_d8 0x34)] = true := by decide

/-- `LD B,r'`: 01 000 r' (R93). -/
theorem test_decode_ld_b_r : decodesAs
    [(0b01000000, .ld_B_B), (0b01000001, .ld_B_C), (0b01000010, .ld_B_D), (0b01000011, .ld_B_E),
     (0b01000100, .ld_B_H), (0b01000101, .ld_B_L), (0b01000111, .ld_B_A)] = true := by decide

/-- `LD C,r'`: 01 001 r' (R93). -/
theorem test_decode_ld_c_r : decodesAs
    [(0b01001000, .ld_C_B), (0b01001001, .ld_C_C), (0b01001010, .ld_C_D), (0b01001011, .ld_C_E),
     (0b01001100, .ld_C_H), (0b01001101, .ld_C_L), (0b01001111, .ld_C_A)] = true := by decide

/-- `LD D,r'`: 01 010 r' (R93). -/
theorem test_decode_ld_d_r : decodesAs
    [(0b01010000, .ld_D_B), (0b01010001, .ld_D_C), (0b01010010, .ld_D_D), (0b01010011, .ld_D_E),
     (0b01010100, .ld_D_H), (0b01010101, .ld_D_L), (0b01010111, .ld_D_A)] = true := by decide

/-- `LD E,r'`: 01 011 r' (R93). -/
theorem test_decode_ld_e_r : decodesAs
    [(0b01011000, .ld_E_B), (0b01011001, .ld_E_C), (0b01011010, .ld_E_D), (0b01011011, .ld_E_E),
     (0b01011100, .ld_E_H), (0b01011101, .ld_E_L), (0b01011111, .ld_E_A)] = true := by decide

/-- `LD H,r'`: 01 100 r' (R93). -/
theorem test_decode_ld_h_r : decodesAs
    [(0b01100000, .ld_H_B), (0b01100001, .ld_H_C), (0b01100010, .ld_H_D), (0b01100011, .ld_H_E),
     (0b01100100, .ld_H_H), (0b01100101, .ld_H_L), (0b01100111, .ld_H_A)] = true := by decide

/-- `LD L,r'`: 01 101 r' (R93). -/
theorem test_decode_ld_l_r : decodesAs
    [(0b01101000, .ld_L_B), (0b01101001, .ld_L_C), (0b01101010, .ld_L_D), (0b01101011, .ld_L_E),
     (0b01101100, .ld_L_H), (0b01101101, .ld_L_L), (0b01101111, .ld_L_A)] = true := by decide

/-- `LD A,r'`: 01 111 r' (R93). -/
theorem test_decode_ld_a_r : decodesAs
    [(0b01111000, .ld_A_B), (0b01111001, .ld_A_C), (0b01111010, .ld_A_D), (0b01111011, .ld_A_E),
     (0b01111100, .ld_A_H), (0b01111101, .ld_A_L), (0b01111111, .ld_A_A)] = true := by decide

/-- Loads from memory, `LD SP,HL` (R94, R97 to R101): 0x0A, 0x1A, 01 r 110, 0x2A, 0x3A, 0xF9. -/
theorem test_decode_ld_mem : decodesAs
    [(0b00001010, .ld_A_atBC), (0b00011010, .ld_A_atDE), (0b01000110, .ld_B_atHL), (0b01001110, .ld_C_atHL),
     (0b01010110, .ld_D_atHL), (0b01011110, .ld_E_atHL), (0b01100110, .ld_H_atHL), (0b01101110, .ld_L_atHL),
     (0b01111110, .ld_A_atHL), (0b00101010, .ld_A_atHLinc), (0b00111010, .ld_A_atHLdec), (0b11111001, .ld_SP_HL)] = true := by decide

/-- Stores to memory (R95, R96, R102 to R106): 0x02, 0x12, 01 110 r, 0x22, 0x32, 0x36, 0x08. -/
theorem test_decode_st_mem : decodesAs
    [(0b00000010, .ld_atBC_A), (0b00010010, .ld_atDE_A), (0b01110000, .ld_atHL_B), (0b01110001, .ld_atHL_C),
     (0b01110010, .ld_atHL_D), (0b01110011, .ld_atHL_E), (0b01110100, .ld_atHL_H), (0b01110101, .ld_atHL_L),
     (0b01110111, .ld_atHL_A), (0b00100010, .ld_atHLinc_A), (0b00110010, .ld_atHLdec_A), (0b00110110, .ld_atHL_d8 0x34),
     (0b00001000, .ld_atA16_SP 0x1234)] = true := by decide

/-- `XOR r`: 10101 r (R110). -/
theorem test_decode_xor : decodesAs
    [(0b10101000, .xor_B), (0b10101001, .xor_C), (0b10101010, .xor_D), (0b10101011, .xor_E),
     (0b10101100, .xor_H), (0b10101101, .xor_L), (0b10101111, .xor_A)] = true := by decide

/-- `JR NZ,d8` and `JR NC,d8` (R120, R121). -/
theorem test_decode_jr : decodesAs
    [(0b00100000, .jr_NZ_d8 0x34), (0b00110000, .jr_NC_d8 0x34)] = true := by decide

/-- `BIT b,B`: 0xCB, 01 b 000 (R115). -/
theorem test_decode_bit_b : decodesAsPrefixed
    [(0b01000000, .bit_0_B), (0b01001000, .bit_1_B), (0b01010000, .bit_2_B), (0b01011000, .bit_3_B),
     (0b01100000, .bit_4_B), (0b01101000, .bit_5_B), (0b01110000, .bit_6_B), (0b01111000, .bit_7_B)] = true := by decide

/-- `BIT b,C`: 0xCB, 01 b 001 (R115). -/
theorem test_decode_bit_c : decodesAsPrefixed
    [(0b01000001, .bit_0_C), (0b01001001, .bit_1_C), (0b01010001, .bit_2_C), (0b01011001, .bit_3_C),
     (0b01100001, .bit_4_C), (0b01101001, .bit_5_C), (0b01110001, .bit_6_C), (0b01111001, .bit_7_C)] = true := by decide

/-- `BIT b,D`: 0xCB, 01 b 010 (R115). -/
theorem test_decode_bit_d : decodesAsPrefixed
    [(0b01000010, .bit_0_D), (0b01001010, .bit_1_D), (0b01010010, .bit_2_D), (0b01011010, .bit_3_D),
     (0b01100010, .bit_4_D), (0b01101010, .bit_5_D), (0b01110010, .bit_6_D), (0b01111010, .bit_7_D)] = true := by decide

/-- `BIT b,E`: 0xCB, 01 b 011 (R115). -/
theorem test_decode_bit_e : decodesAsPrefixed
    [(0b01000011, .bit_0_E), (0b01001011, .bit_1_E), (0b01010011, .bit_2_E), (0b01011011, .bit_3_E),
     (0b01100011, .bit_4_E), (0b01101011, .bit_5_E), (0b01110011, .bit_6_E), (0b01111011, .bit_7_E)] = true := by decide

/-- `BIT b,H`: 0xCB, 01 b 100 (R115). -/
theorem test_decode_bit_h : decodesAsPrefixed
    [(0b01000100, .bit_0_H), (0b01001100, .bit_1_H), (0b01010100, .bit_2_H), (0b01011100, .bit_3_H),
     (0b01100100, .bit_4_H), (0b01101100, .bit_5_H), (0b01110100, .bit_6_H), (0b01111100, .bit_7_H)] = true := by decide

/-- `BIT b,L`: 0xCB, 01 b 101 (R115). -/
theorem test_decode_bit_l : decodesAsPrefixed
    [(0b01000101, .bit_0_L), (0b01001101, .bit_1_L), (0b01010101, .bit_2_L), (0b01011101, .bit_3_L),
     (0b01100101, .bit_4_L), (0b01101101, .bit_5_L), (0b01110101, .bit_6_L), (0b01111101, .bit_7_L)] = true := by decide

/-- `BIT b,A`: 0xCB, 01 b 111 (R115). -/
theorem test_decode_bit_a : decodesAsPrefixed
    [(0b01000111, .bit_0_A), (0b01001111, .bit_1_A), (0b01010111, .bit_2_A), (0b01011111, .bit_3_A),
     (0b01100111, .bit_4_A), (0b01101111, .bit_5_A), (0b01110111, .bit_6_A), (0b01111111, .bit_7_A)] = true := by decide

/-- Prefixed NOP (R86, R69): 0x00, 0xCB, 0x66, 0x80. -/
theorem test_decode_nop_cb : decodesAsPrefixed
    [(0b00000000, .nopCb 0x00), (0b11001011, .nopCb 0xCB), (0b01100110, .nopCb 0x66), (0b10000000, .nopCb 0x80)] = true := by decide

/-- The prefix byte in the primary table (R85). -/
theorem test_decode_prefix : (match decodePrimary defaultParams [0b11001011, 0b01111100] with
    | .ok (i, rest) => i == .prefixCb 0x7C && rest == []
    | .error _ => false) = true := by decide

/-- The opcode table's numbering (R78): byte 0 is bits 15..8, byte 1 bits 7..0. -/
theorem test_table_words : (decodeTableWord 16 0x3100, decodeTableWord 16 0xCB7C, decodeTableWord 16 0xAF00)
    = (some (.ld_SP_d16 0x0000), some .bit_7_H, some .xor_A) := by decide

/-- A table word is fetched and run as the first instruction after reset: XOR A (R110). -/
theorem test_withFetchWord : ends (State.reset.withFetchWord 16 0xAF00) 1 [(.AF, 0x0080)] [(0, 0xAF)] = true := by decide

/-- A list that ends inside an instruction is rejected by name. -/
theorem test_decode_rejects : (match decode defaultParams [0x31, 0x00], decode defaultParams [] with
    | .error e, .error f => e == .missingOperand 0x31 && f == .noOpcode
    | _, _ => false) = true := by decide

/-- With `ASSIGNED_G` empty of 0x21 its byte is a NOP of one byte (R69, D1); 0x31 stays (R67). -/
theorem test_decode_left_out : (match decode ⟨.fault, [0x21, 0x31], []⟩ [0x21, 0xFF], decode ⟨.fault, [0x21, 0x31], []⟩ [0x31, 0x34, 0x12] with
    | .ok (i, r), .ok (j, q) => i == .nop 0x21 && r == [0xFF] && j == .ld_SP_d16 0x1234 && q == []
    | _, _ => false) = true := by decide

/-! ### Register laws (95_test_vectors.md section 1, instances of X1 to X4, X10) -/

theorem test_x1_hl_views : (fun s => (readReg .HL s, readReg .H s, readReg .L s)) (writeReg .HL 0x9FFF State.reset)
    = (0x9FFF, 0x009F, 0x00FF) := by decide
theorem test_x1_af_low_bits_stored : (fun s => (readReg .AF s, readReg .F s)) (writeReg .AF 0x12FF State.reset)
    = (0x12FF, 0x00FF) := by decide
theorem test_x2_truncation : (fun s => (readReg .A s, readReg .L s, readReg .B s)) (writeReg .L 0xFF00 (writeReg .A 0x1234 State.reset))
    = (0x0034, 0x0000, 0x0000) := by decide
theorem test_x3_pair_from_halves : readReg .BC (writeReg .C 0xCD (writeReg .B 0xAB State.reset)) = 0xABCD := by decide
theorem test_x4_flags : readReg .F (setFlag .Z false (setFlag .C true (setFlag .Z true State.reset))) = 0x10
    ∧ readReg .F (setFlag .H false (writeReg .F 0xFF State.reset)) = 0xDF := by decide
theorem test_x10_split : (hiByte 0x8000, loByte 0x8000, joinBytes 0xA5 0x5A) = (0x80, 0x00, 0xA55A) := by decide

/-! ### Single steps (95_test_vectors.md section 2) -/

/-- V2: 0x76. -/
theorem test_v2_halt_byte_is_nop : ends (coreAt 0 [(.A, 0x01)] [(0, [0x76])]) 1 [(.A, 0x01)] [] = true := by decide

/-- V3: 0xC3. -/
theorem test_v3_jp_byte_is_nop : ends (coreAt 0 [] [(0, [0xC3, 0x50, 0x01])]) 1 [(.SP, 0)] [] = true := by decide

/-- V5: CB CB. -/
theorem test_v5_second_prefix_is_nop : ends (coreAt 0 [] [(0, [0xCB, 0xCB])]) 2 [(.AF, 0)] [] = true := by decide

/-- V6: CB 66. -/
theorem test_v6_prefixed_nop : ends (coreAt 0 [(.F, 0x50)] [(0, [0xCB, 0x66])]) 2 [(.F, 0x50)] [] = true := by decide

/-- V7: the last byte of memory. -/
theorem test_v7_nop_at_top : ends (coreAt 0xFFFF [] [(0xFFFF, [0x00])]) 0x10000 [] [] = true := by decide

/-- V8. -/
theorem test_v8_prefix_at_top : faults (coreAt 0xFFFF [] [(0xFFFF, [0xCB])]) (.outOfBounds 0x10000) = true := by decide

/-- V9. -/
theorem test_v9_fetch_above_memory : faults (coreAt 0x10000 [] []) (.outOfBounds 0x10000) = true := by decide

/-- V10. -/
theorem test_v10_ld_sp : ends (coreAt 0 [] [(0, [0x31, 0xFE, 0xFF])]) 3 [(.SP, 0xFFFE)] [] = true := by decide

/-- V12. -/
theorem test_v12_ld_bc_at_top :
    ends (coreAt 0xFFFD [] [(0xFFFD, [0x01, 0x22, 0x11])]) 0x10000 [(.B, 0x11), (.C, 0x22)] [] = true := by decide

/-- V13. -/
theorem test_v13_ld_bc_off_the_end : faults (coreAt 0xFFFE [] [(0xFFFE, [0x01])]) (.outOfBounds 0x10000) = true := by decide

/-- V14. -/
theorem test_v14_ld_e : ends (coreAt 0 [(.D, 0x11)] [(0, [0x1E, 0xEE])]) 2 [(.E, 0xEE), (.D, 0x11)] [] = true := by decide

/-- V15. -/
theorem test_v15_ld_a_off_the_end : faults (coreAt 0xFFFF [] [(0xFFFF, [0x3E])]) (.outOfBounds 0x10000) = true := by decide

/-- V16. -/
theorem test_v16_ld_a_b : ends (coreAt 0 [(.B, 0x12)] [(0, [0x78])]) 1 [(.A, 0x12), (.B, 0x12)] [] = true := by decide

/-- V17. -/
theorem test_v17_ld_b_b : ends (coreAt 0 [(.B, 0x12)] [(0, [0x40])]) 1 [(.BC, 0x1200)] [] = true := by decide

/-- V18. -/
theorem test_v18_ld_sp_hl :
    ends (coreAt 0 [(.HL, 0xC000)] [(0, [0xF9])]) 1 [(.SP, 0xC000), (.HL, 0xC000)] [] = true := by decide

/-- V19. -/
theorem test_v19_ld_at_hl_imm :
    ends (coreAt 0 [(.HL, 0xC000)] [(0, [0x36, 0xAB])]) 2 [(.HL, 0xC000)] [(0xC000, 0xAB)] = true := by decide

/-- V20. -/
theorem test_v20_ld_at_hl_imm_onto_itself :
    ends (coreAt 0 [(.HL, 0x0001)] [(0, [0x36, 0xAB])]) 2 [] [(0, 0x36), (1, 0xAB)] = true := by decide

/-- V21. -/
theorem test_v21_ld_abs_sp :
    ends (coreAt 0x100 [(.SP, 0xABCD)] [(0x100, [0x08, 0xFE, 0xFF])]) 0x103 [] [(0xFFFE, 0xCD), (0xFFFF, 0xAB)] = true := by decide

/-- V22. -/
theorem test_v22_ld_abs_sp_at_top :
    faults (coreAt 0x100 [(.SP, 0xABCD)] [(0x100, [0x08, 0xFF, 0xFF])]) (.outOfBounds 0x10000) = true := by decide

/-- V23. -/
theorem test_v23_ld_a_at_bc :
    ends (coreAt 0 [(.BC, 0x1234)] [(0, [0x0A]), (0x1234, [0x5A])]) 1 [(.A, 0x5A)] [] = true := by decide

/-- V24. -/
theorem test_v24_ld_a_at_de :
    ends (coreAt 0 [(.DE, 0x0104)] [(0, [0x1A]), (0x0104, [0xCE])]) 1 [(.A, 0xCE)] [] = true := by decide

/-- V25: the address is read before H is written. -/
theorem test_v25_ld_h_at_hl :
    ends (coreAt 0 [(.HL, 0x8000)] [(0, [0x66]), (0x8000, [0x81])]) 1 [(.HL, 0x8100)] [] = true := by decide

/-- V26. -/
theorem test_v26_ld_l_at_hl :
    ends (coreAt 0 [(.HL, 0x8000)] [(0, [0x6E]), (0x8000, [0x81])]) 1 [(.HL, 0x8081)] [] = true := by decide

/-- V27. -/
theorem test_v27_ld_a_hl_inc :
    ends (coreAt 0 [(.HL, 0x00FF), (.F, 0x50)] [(0, [0x2A]), (0x00FF, [0x11])]) 1 [(.A, 0x11), (.HL, 0x0100), (.F, 0x50)] [] = true := by decide

/-- V28. -/
theorem test_v28_ld_a_hl_dec :
    ends (coreAt 0x200 [(.HL, 0x0100)] [(0x200, [0x3A]), (0x0100, [0x22])]) 0x201 [(.A, 0x22), (.HL, 0x00FF)] [] = true := by decide

/-- V29, `SE_OVERFLOW = Fault`. -/
theorem test_v29_ld_a_hl_inc_faults :
    faults (coreAt 0x100 [(.HL, 0xFFFF)] [(0x100, [0x2A]), (0xFFFF, [0x99])]) (.addrRegOverflow .HL 0xFFFF) = true := by decide

/-- V29, `SE_OVERFLOW = Wrap`. -/
theorem test_v29_ld_a_hl_inc_wraps :
    ends (wrapping (coreAt 0x100 [(.HL, 0xFFFF)] [(0x100, [0x2A]), (0xFFFF, [0x99])])) 0x101 [(.A, 0x99), (.HL, 0x0000)] [] = true := by decide

/-- V30. -/
theorem test_v30_ld_at_bc_a :
    ends (coreAt 0 [(.BC, 0xC010), (.A, 0x99)] [(0, [0x02])]) 1 [] [(0xC010, 0x99)] = true := by decide

/-- V31. -/
theorem test_v31_ld_at_de_a :
    ends (coreAt 0 [(.DE, 0xC011), (.A, 0x01)] [(0, [0x12])]) 1 [] [(0xC011, 0x01)] = true := by decide

/-- V32. -/
theorem test_v32_ld_at_hl_h : ends (coreAt 0 [(.HL, 0xC234)] [(0, [0x74])]) 1 [] [(0xC234, 0xC2)] = true := by decide

/-- V33. -/
theorem test_v33_ld_at_hl_l : ends (coreAt 0 [(.HL, 0xC234)] [(0, [0x75])]) 1 [] [(0xC234, 0x34)] = true := by decide

/-- V34. -/
theorem test_v34_ld_hl_inc_a :
    ends (coreAt 0 [(.HL, 0xC0FF), (.A, 0x42)] [(0, [0x22])]) 1 [(.HL, 0xC100)] [(0xC0FF, 0x42)] = true := by decide

/-- V35. -/
theorem test_v35_ld_hl_dec_a :
    ends (coreAt 0 [(.HL, 0x9FFF)] [(0, [0x32])]) 1 [(.HL, 0x9FFE)] [(0x9FFF, 0x00)] = true := by decide

/-- V36, `SE_OVERFLOW = Fault`. -/
theorem test_v36_ld_hl_dec_a_faults :
    faults (coreAt 0x100 [(.A, 0x77)] [(0x100, [0x32])]) (.addrRegOverflow .HL 0x0000) = true := by decide

/-- V36, `SE_OVERFLOW = Wrap`. -/
theorem test_v36_ld_hl_dec_a_wraps :
    ends (wrapping (coreAt 0x100 [(.A, 0x77)] [(0x100, [0x32])])) 0x101 [(.HL, 0xFFFF)] [(0, 0x77)] = true := by decide

/-- V40. -/
theorem test_v40_xor_af : ends (coreAt 0 [(.A, 0xFF), (.F, 0x70)] [(0, [0xAF])]) 1 [(.AF, 0x0080)] [] = true := by decide

/-- V42. -/
theorem test_v42_xor_a8 :
    ends (coreAt 0 [(.A, 0x5A), (.B, 0xFF), (.F, 0xF0)] [(0, [0xA8])]) 1 [(.AF, 0xA500), (.B, 0xFF)] [] = true := by decide

/-- V43. -/
theorem test_v43_xor_a9 :
    ends (coreAt 0 [(.A, 0x3C), (.C, 0x3C)] [(0, [0xA9])]) 1 [(.AF, 0x0080), (.C, 0x3C)] [] = true := by decide

/-- V44. -/
theorem test_v44_xor_ad : ends (coreAt 0 [(.A, 0x0F), (.L, 0xF0)] [(0, [0xAD])]) 1 [(.AF, 0xFF00)] [] = true := by decide

/-- V45. -/
theorem test_v45_xor_aa : ends (coreAt 0 [(.F, 0x10)] [(0, [0xAA])]) 1 [(.AF, 0x0080)] [] = true := by decide

/-- V46. -/
theorem test_v46_xor_ae : ends (coreAt 0 [(.A, 0x0F), (.F, 0x10)] [(0, [0xAE])]) 1 [(.AF, 0x0F10)] [] = true := by decide

/-- V50. -/
theorem test_v50_bit_7c : ends (coreAt 0 [] [(0, [0xCB, 0x7C])]) 2 [(.F, 0xA0)] [] = true := by decide

/-- V51. -/
theorem test_v51_bit_7c : ends (coreAt 0 [(.H, 0x80)] [(0, [0xCB, 0x7C])]) 2 [(.F, 0x20), (.H, 0x80)] [] = true := by decide

/-- V55. -/
theorem test_v55_bit_47 : ends (coreAt 0 [(.A, 0x01)] [(0, [0xCB, 0x47])]) 2 [(.F, 0x20), (.A, 0x01)] [] = true := by decide

/-- V56. -/
theorem test_v56_bit_5b : ends (coreAt 0 [(.E, 0xF7)] [(0, [0xCB, 0x5B])]) 2 [(.F, 0xA0), (.E, 0xF7)] [] = true := by decide

/-- V57. -/
theorem test_v57_bit_70 :
    ends (coreAt 0 [(.B, 0x40), (.F, 0x80)] [(0, [0xCB, 0x70])]) 2 [(.F, 0x20), (.B, 0x40)] [] = true := by decide

/-- V53. -/
theorem test_v53_bit_keeps_carry :
    ends (coreAt 0 [(.H, 0x80), (.F, 0xD0)] [(0, [0xCB, 0x7C])]) 2 [(.F, 0x30)] [] = true := by decide

/-- V60. -/
theorem test_v60_jr_nz_taken : ends (coreAt 0 [] [(0, [0x20, 0x05])]) 6 [] [] = true := by decide

/-- V61. -/
theorem test_v61_jr_nz_not_taken : ends (coreAt 0 [(.F, 0x80)] [(0, [0x20, 0x05])]) 2 [(.F, 0x80)] [] = true := by decide

/-- V62 (decision D7). -/
theorem test_v62_jr_nz_distance_0 : ends (coreAt 0x200 [] [(0x200, [0x20, 0x00])]) 0x201 [] [] = true := by decide

/-- V66. -/
theorem test_v66_jr_nz_is_unsigned : ends (coreAt 0x0A [] [(0x0A, [0x20, 0xFB])]) 0x106 [] [] = true := by decide

/-- V67. -/
theorem test_v67_jr_nz_past_the_end : ends (coreAt 0xFFFE [] [(0xFFFE, [0x20, 0xFF])]) 0x100FE [] [] = true := by decide

/-- V68. -/
theorem test_v68_jr_nz_operand_off_the_end :
    faults (coreAt 0xFFFF [(.F, 0x80)] [(0xFFFF, [0x20])]) (.outOfBounds 0x10000) = true := by decide

/-- V69. -/
theorem test_v69_jr_nc_taken : ends (coreAt 0x200 [(.F, 0x80)] [(0x200, [0x30, 0x10])]) 0x211 [] [] = true := by decide

/-- V70. -/
theorem test_v70_jr_nc_not_taken : ends (coreAt 0x200 [(.F, 0x10)] [(0x200, [0x30, 0x10])]) 0x202 [] [] = true := by decide

/-- V71: 0x18. -/
theorem test_v71_jr_byte_is_nop : ends (coreAt 0 [] [(0, [0x18, 0x05])]) 1 [] [] = true := by decide

/-- A faulted core is refused (R132, R154). -/
theorem test_faulted_core : (match step (State.reset.markFaulted (.outOfBounds 0x10000)) with
    | .refused r => r == .stepWhileFaulted (.outOfBounds 0x10000)
    | _ => false) = true := by decide

/-- Storing the value an unlisted address reads as removes the entry (log entry 19). -/
theorem test_memory_canonical : (Memory.write (Memory.write (Memory.write [] 5 0xAA) 3 0xBB) 5 0x00) = [(3, 0xBB)] := by decide

/-- The codes of the two causes (R131). -/
theorem test_fault_codes : ((Fault.outOfBounds 0).code, (Fault.addrRegOverflow .HL 0).code) = (1, 2) := by decide

/-! ### Witnesses: concrete inputs that meet the premises of each statement, clause by clause -/

theorem witness_RegisterReadIsItsBytes : (RegName.A, (0 : Fin 10)) ∈ [(RegName.A, (0 : Fin 10)), (.F, 1)]
    ∧ (RegName.SP, (8 : Fin 10), (9 : Fin 10)) ∈ [(RegName.HL, (6 : Fin 10), (7 : Fin 10)), (.SP, 8, 9)] := by decide

theorem witness_RegisterWriteTouchesOnlyItsBytes : (RegName.L, (7 : Fin 10)) ∈ [(RegName.H, (6 : Fin 10)), (.L, 7)]
    ∧ (RegName.AF, (0 : Fin 10), (1 : Fin 10)) ∈ [(RegName.AF, (0 : Fin 10), (1 : Fin 10))]
    ∧ (3 : Fin 10) ∉ [(7 : Fin 10)] := by decide

theorem witness_RegisterFileLaws : RegName.SP ∈ [RegName.AF, .BC, .DE, .HL, .SP]
    ∧ RegName.A ∈ [RegName.A, .F, .B, .C, .D, .E, .H, .L]
    ∧ (RegName.B, RegName.C, RegName.BC) ∈ [(RegName.A, RegName.F, RegName.AF), (.B, .C, .BC)] := by decide

theorem witness_FlagAccessIsOneBitOfF : (FlagName.C, 4) ∈ [(FlagName.Z, 7), (.N, 6), (.H, 5), (.C, 4)]
    ∧ 0 < 8 ∧ 0 ≠ 4 ∧ 7 < 8 ∧ 7 ≠ 4 := by decide

theorem witness_ConstructedStateIsZeroed : 0 ≤ 0xFFFF ∧ 0xFFFF ≤ 0xFFFF := by decide

/-- Addresses 0, 0xFFFF and 0x10000 over a canonical memory with an entry. -/
theorem witness_MemoryReadsTheByteLastWritten :
    (∃ (s : State) (a : Nat), s.mem.wf ∧ a = 0xFFFF) ∧ ∃ (s : State) (a : Nat), s.mem.wf ∧ a = 0x10000 :=
  ⟨⟨coreAt 0 [] [(0xFFFF, [0x5A])], _, by decide, rfl⟩, ⟨coreAt 0 [] [(0xFFFF, [0x5A])], _, by decide, rfl⟩⟩

theorem witness_OperandFetchAdvancesThenReads : (∃ s : State, s.pc + 1 = 0xFFFF) ∧ (∃ s : State, s.pc = 0xFFFF)
    ∧ ∃ (k : Nat) (s : State), s.pc + k = 0xFFFF ∧ 1 < k :=
  ⟨⟨coreAt 0xFFFE [] [], by decide⟩, ⟨coreAt 0xFFFF [] [], by decide⟩, ⟨2, coreAt 0xFFFD [] [], by decide⟩⟩

/-- Each clause at its boundary value. -/
theorem witness_AddressStepFollowsThePolicy :
    (∃ s : State, (readReg .HL s).toNat = 0xFFFE) ∧ (∃ s : State, readReg .HL s = 0xFFFF ∧ s.params.seOverflow = .wrap)
    ∧ (∃ s : State, readReg .HL s = 0xFFFF ∧ s.params.seOverflow = .fault) ∧ (∃ s : State, (readReg .HL s).toNat = 1)
    ∧ (∃ s : State, readReg .HL s = 0x0000 ∧ s.params.seOverflow = .wrap)
    ∧ ∃ s : State, readReg .HL s = 0x0000 ∧ s.params.seOverflow = .fault :=
  ⟨⟨coreAt 0 [(.HL, 0xFFFE)] [], by decide⟩, ⟨wrapping (coreAt 0 [(.HL, 0xFFFF)] []), by decide⟩,
    ⟨coreAt 0 [(.HL, 0xFFFF)] [], by decide⟩, ⟨coreAt 0 [(.HL, 1)] [], by decide⟩, ⟨wrapping (coreAt 0 [] []), by decide⟩,
    ⟨coreAt 0 [] [], by decide⟩⟩

theorem witness_DecodeIsTotal : ([0x34, 0x12] : List Byte).length = operandCount defaultParams 0x31
    ∧ ([] : List Byte).length = operandCount defaultParams 0xAF := by decide

/-- Bytes of tier U, tier G bytes left out, tier G bytes kept, in both tables. -/
theorem witness_UnassignedBytesAreNoOps :
    (tierSPrimary 0x76 = false ∧ tierGPrimary 0x76 = false) ∧ (tierSSecondary 0xCB = false ∧ tierGSecondary 0xCB = false)
    ∧ (tierGPrimary 0x21 = true ∧ ([0x21] : List Byte).contains 0x21 = true)
    ∧ (tierGSecondary 0x40 = true ∧ ([0x40] : List Byte).contains 0x40 = true)
    ∧ (tierGPrimary 0x22 = true ∧ ([0x21] : List Byte).contains 0x22 = false)
    ∧ (tierGSecondary 0x41 = true ∧ ([0x40] : List Byte).contains 0x41 = false) := by decide

theorem witness_DecodeOfEncodeIsTheInstruction : (Instr.ld_BC_d16 0xFFFF).inMap defaultParams = true
    ∧ (Instr.nop 0x76).inMap defaultParams = true ∧ (Instr.nopCb 0xFF).inMap defaultParams = true
    ∧ (Instr.prefixCb 0x7C).inMap defaultParams = true ∧ (Instr.prefixCb 0x7C).table = .primary := by decide

theorem witness_EncodeOfDecodeIsTheBytes : (match decode defaultParams [0xCB, 0x7C, 0x00] with
    | .ok (i, rest) => i == .bit_7_H && rest == [0x00]
    | .error _ => false) = true := by decide

/-- `JR NZ,FF` in the last two bytes of memory: the end of the instruction is exactly the end of memory. -/
theorem witness_StepRunsTheDecodedInstruction : (coreAt 0xFFFE [] [(0xFFFE, [0x20, 0xFF])]).run = .running
    ∧ (match decode defaultParams ((coreAt 0xFFFE [] [(0xFFFE, [0x20, 0xFF])]).mem.bytesAt 0xFFFE 2) with
      | .ok (i, rest) => i == .jr_NZ_d8 0xFF && rest == []
      | .error _ => false) = true
    ∧ 0xFFFE + (Instr.jr_NZ_d8 0xFF).length ≤ 0x10000 := by decide

/-- A running core, one state for each condition of `FaultsWith`, each at its boundary. -/
theorem witness_StepFaultsExactlyAsListed :
    FaultsWith (coreAt 0x10000 [] []) (.outOfBounds 0x10000)
    ∧ FaultsWith (coreAt 0xFFFF [] [(0xFFFF, [0xCB])]) (.outOfBounds 0x10000)
    ∧ FaultsWith (coreAt 0xFFFD [] [(0xFFFD, [0x08, 0xFF, 0xFF])]) (.outOfBounds 0x10000)
    ∧ FaultsWith (coreAt 0xFFFE [(.HL, 0xFFFF)] [(0xFFFE, [0x2A])]) (.addrRegOverflow .HL 0xFFFF)
    ∧ FaultsWith (coreAt 0xFFFF [] [(0xFFFF, [0x32])]) (.addrRegOverflow .HL 0x0000)
    ∧ (coreAt 0xFFFF [] [(0xFFFF, [0x32])]).run = .running := by
  refine ⟨.inl ?_, .inr (.inl ?_), .inr (.inr (.inl ?_)), .inr (.inr (.inr (.inl ?_))), .inr (.inr (.inr (.inr ?_))), ?_⟩ <;> decide

theorem witness_RunningStepIsNeverRefused : State.reset.run = .running := by decide

/-- A taken and an untaken jump, and a three-byte instruction, that complete. -/
theorem witness_ProgramCounterAccounting :
    (match decode defaultParams ((coreAt 0 [] [(0, [0x20, 0x05])]).mem.bytesAt 0 2) with
      | .ok (i, _) => i == .jr_NZ_d8 0x05
      | .error _ => false) = true
    ∧ completes (coreAt 0 [] [(0, [0x20, 0x05])]) = true ∧ completes (coreAt 0 [(.F, 0x90)] [(0, [0x20, 0x05])]) = true
    ∧ completes (coreAt 0 [(.F, 0x90)] [(0, [0x30, 0x05])]) = true ∧ completes (coreAt 0xFFFD [] [(0xFFFD, [0x31])]) = true := by
  decide

theorem witness_LoadImmediate16 : RegName.SP ∈ imm16Loads.map (·.2) := by decide
theorem witness_LoadImmediate8 : RegName.H ∈ imm8Loads.map (·.2) := by decide
theorem witness_LoadRegisterFromRegister : (Instr.ld_H_L, RegName.H, RegName.L) ∈ regLoads := by decide
theorem witness_LoadFromMemory : (Instr.ld_H_atHL, RegName.H, RegName.HL) ∈ memLoads := by decide
theorem witness_XorResult : (Instr.xor_A, RegName.A) ∈ xors := by decide
theorem witness_BitTestResult : (Instr.bit_7_H, 7, RegName.H) ∈ bitTests := by decide

theorem witness_StoreImmediateAtHl : ∃ s : State, s.mem.wf ∧ readReg .HL s = 0xFFFF :=
  ⟨coreAt 0 [(.HL, 0xFFFF)] [(0, [0x36, 0xAB])], by decide⟩

/-- The highest address both bytes fit at. -/
theorem witness_StoreSpAbsolute : ∃ (a16 : Word) (s : State), s.mem.wf ∧ a16 ≠ 0xFFFF :=
  ⟨0xFFFE, coreAt 0 [(.SP, 0xABCD)] [(0, [0x08, 0xFE, 0xFF])], by decide⟩

theorem witness_StoreToMemory : (Instr.ld_atHL_H, RegName.HL, RegName.H) ∈ memStores ∧ ∃ s : State, s.mem.wf :=
  ⟨by decide, coreAt 0 [(.HL, 0xC234)] [(0, [0x74])], by decide⟩

/-- HL in range at its last value for each direction, and out of range with `SE_OVERFLOW = Wrap`. -/
theorem witness_LoadWithSideEffect :
    (∃ s : State, readReg .HL s ≠ 0xFFFF) ∧ (∃ s : State, readReg .HL s ≠ 0x0000)
    ∧ ∃ s : State, readReg .HL s = 0xFFFF ∧ s.params.seOverflow = .wrap :=
  ⟨⟨coreAt 0 [(.HL, 0xFFFE)] [], by decide⟩, ⟨coreAt 0 [(.HL, 0x0001)] [], by decide⟩,
    ⟨wrapping (coreAt 0 [(.HL, 0xFFFF)] []), by decide⟩⟩

theorem witness_StoreWithSideEffect :
    (∃ s : State, s.mem.wf ∧ readReg .HL s ≠ 0xFFFF) ∧ (∃ s : State, s.mem.wf ∧ readReg .HL s ≠ 0x0000)
    ∧ ∃ s : State, s.mem.wf ∧ readReg .HL s = 0xFFFF ∧ s.params.seOverflow = .wrap :=
  ⟨⟨coreAt 0 [(.HL, 0xFFFE)] [(0, [0x22])], by decide⟩, ⟨coreAt 0 [(.HL, 0x0001)] [(0, [0x32])], by decide⟩,
    ⟨wrapping (coreAt 0 [(.HL, 0xFFFF)] [(0, [0x22])]), by decide⟩⟩

theorem witness_SideEffectOverflowFaults :
    (∃ s : State, s.params.seOverflow = .fault ∧ readReg .HL s = 0xFFFF)
    ∧ ∃ s : State, s.params.seOverflow = .fault ∧ readReg .HL s = 0x0000 :=
  ⟨⟨coreAt 0 [(.HL, 0xFFFF)] [], by decide⟩, ⟨coreAt 0 [] [], by decide⟩⟩

theorem witness_HandlersOverAllRegisterNames :
    (∃ (n : RegName) (s : State), n.hiIndex = none ∧ s.mem.wf ∧ readReg n s = 0x00FF)
    ∧ (∃ (n : RegName) (s : State), n.hiIndex = none ∧ readReg n s = 0x0000 ∧ s.params.seOverflow = .wrap)
    ∧ ∃ (n : RegName) (s : State), n.hiIndex = none ∧ readReg n s = 0x0000 ∧ s.params.seOverflow = .fault :=
  ⟨⟨.E, coreAt 0 [(.E, 0xFF)] [(0xFF, [0x5A])], by decide⟩, ⟨.E, wrapping (coreAt 0 [] []), by decide⟩,
    ⟨.E, coreAt 0 [] [], by decide⟩⟩

theorem witness_RelativeJumpOnClearFlag : (∃ s : State, 1 ≤ s.pc ∧ getFlag .Z s = false)
    ∧ ∃ s : State, 1 ≤ s.pc ∧ getFlag .Z s = true :=
  ⟨⟨coreAt 1 [] [], by decide⟩, ⟨coreAt 1 [(.F, 0x80)] [], by decide⟩⟩

/-- An unassigned byte at the last address, and after 0xCB at the last two. -/
theorem witness_NoOpOnlyAdvances :
    (∃ s : State, s.run = .running ∧ s.pc ≤ 0xFFFF ∧ s.params.assignsPrimary (s.mem.read s.pc) = false)
    ∧ ∃ s : State, s.run = .running ∧ s.pc + 1 ≤ 0xFFFF ∧ s.mem.read s.pc = 0xCB
      ∧ s.params.assignsSecondary (s.mem.read (s.pc + 1)) = false :=
  ⟨⟨coreAt 0xFFFF [] [(0xFFFF, [0x76])], by decide⟩, ⟨coreAt 0xFFFE [] [(0xFFFE, [0xCB, 0x66])], by decide⟩⟩

theorem witness_PrefixRunsThePrefixedInstruction : 0 < 5 ∧ 4 < 5 := by decide

theorem witness_StepOfLoadSpImmediate : ∃ s : State, s.run = .running ∧ s.pc + 2 ≤ 0xFFFF ∧ s.mem.read s.pc = 0x31 :=
  ⟨coreAt 0xFFFD [] [(0xFFFD, [0x31, 0xFE, 0xFF])], by decide⟩

theorem witness_StepOfXorA : ∃ s : State, s.run = .running ∧ s.pc ≤ 0xFFFF ∧ s.mem.read s.pc = 0xAF :=
  ⟨coreAt 0xFFFF [(.A, 0x5A)] [(0xFFFF, [0xAF])], by decide⟩

theorem witness_StepOfBit7H : ∃ s : State, s.run = .running ∧ s.pc + 1 ≤ 0xFFFF ∧ s.mem.read s.pc = 0xCB
    ∧ s.mem.read (s.pc + 1) = 0x7C :=
  ⟨coreAt 0xFFFE [(.H, 0x80)] [(0xFFFE, [0xCB, 0x7C])], by decide⟩

theorem witness_StepOfJumpNz :
    (∃ s : State, s.run = .running ∧ s.mem.read s.pc = 0x20 ∧ s.pc + 1 ≤ 0xFFFF ∧ getFlag .Z s = false)
    ∧ (∃ s : State, s.run = .running ∧ s.mem.read s.pc = 0x20 ∧ s.pc + 1 ≤ 0xFFFF ∧ getFlag .Z s = true)
    ∧ ∃ s : State, s.run = .running ∧ s.mem.read s.pc = 0x20 ∧ s.pc = 0xFFFF :=
  ⟨⟨coreAt 0xFFFE [] [(0xFFFE, [0x20, 0xFF])], by decide⟩, ⟨coreAt 0xFFFE [(.F, 0x80)] [(0xFFFE, [0x20, 0xFF])], by decide⟩,
    ⟨coreAt 0xFFFF [] [(0xFFFF, [0x20])], by decide⟩⟩

/-- A state in the middle of a run, with registers, flags and memory in use, satisfies the invariant. -/
theorem witness_inv : (coreAt 0x0A [(.A, 0x12), (.F, 0xE0), (.HL, 0x9FFF)] [(0x0A, [0x30, 0xFB]), (0x9FFF, [0x5A])]).Inv :=
  ⟨by decide, by decide, by decide, by decide, by decide⟩

theorem witness_StepKeepsTheInvariant :
    (coreAt 0x0A [(.A, 0x12), (.F, 0xE0), (.HL, 0x9FFF)] [(0x0A, [0x30, 0xFB]), (0x9FFF, [0x5A])]).Inv
    ∧ completes (coreAt 0x0A [(.A, 0x12), (.F, 0xE0), (.HL, 0x9FFF)] [(0x0A, [0x30, 0xFB]), (0x9FFF, [0x5A])]) = true :=
  ⟨witness_inv, by decide⟩

theorem witness_ProgramCounterOnlyMovesForward : completes (coreAt 0xFFFE [] [(0xFFFE, [0x20, 0xFF])]) = true := by decide

theorem witness_EveryRunEndsInTheFatalFault : (coreAt 0xFFFF [] []).run = .running
    ∧ (match Host.Core.run Sys2Proof.core 1 (coreAt 0xFFFF [] []) with
      | .next t => decide (State.pc t = 0x10000)
      | _ => false) = true := by decide

theorem witness_OnlyXorAndBitWriteF : (match exec .xor_A (coreAt 0 [] []) with
    | .next t => readReg .F t != readReg .F (coreAt 0 [] [])
    | _ => false) = true := by decide

theorem witness_NoInstructionSetsCarry : (match exec .bit_7_H (coreAt 0 [(.F, 0x10)] []) with
    | .next t => (readReg .F t).getLsbD 4
    | _ => false) = true := by decide

theorem witness_JumpNcIsAlwaysTakenInRuns : ∃ s : State, s.Inv ∧ s.pc + 1 ≤ 0xFFFF ∧ s.mem.read s.pc = 0x30
    ∧ s.params.assignsPrimary 0x30 = true :=
  ⟨_, witness_inv, by decide⟩

theorem witness_OnlySpLoadsWriteSp : (match exec .ld_SP_HL (coreAt 0 [(.HL, 0xC000)] []) with
    | .next t => readReg .SP t != readReg .SP (coreAt 0 [(.HL, 0xC000)] [])
    | _ => false) = true := by decide

theorem witness_OnlyStoresChangeMemory : (match exec (.ld_atA16_SP 0xC000) (coreAt 0 [(.SP, 0xABCD)] []) with
    | .next t => t.mem.read 0xC000 != (coreAt 0 [] []).mem.read 0xC000 && t.mem.read 0xC001 != (coreAt 0 [] []).mem.read 0xC001
    | _ => false) = true := by decide

/-- One instruction that completes and one that faults. -/
theorem witness_NoInstructionSeesTheRunStatus : (match exec .xor_A (coreAt 0 [] []), exec .ld_A_atHLdec (coreAt 0 [] []) with
    | .next _, .fault _ => true
    | _, _ => false) = true := by decide

/-- The premises of every clause of `StoreIsSeenByTheNextFetch`, on `s` alone. -/
abbrev AtStore (s : State) : Prop := s.run = .running ∧ s.mem.wf ∧ s.pc + 1 ≤ 0xFFFF ∧ s.mem.read s.pc = 0x36
  ∧ s.params.assignsPrimary 0x36 = true

/-- `LD (HL),AF` whose store lands on the next opcode byte (program P5); `LD (HL),CB` onto the last byte of memory, so that the
next operand fetch faults; `LD (HL),7C` onto the byte after a 0xCB, at the end of memory. -/
theorem witness_StoreIsSeenByTheNextFetch :
    (∃ s : State, AtStore s ∧ (readReg .HL s).toNat = s.pc + 2
      ∧ s.pc + 2 + operandCount s.params (s.mem.read (s.pc + 1)) ≤ 0xFFFF)
    ∧ (∃ s : State, AtStore s ∧ (readReg .HL s).toNat = s.pc + 2
      ∧ 0xFFFF < s.pc + 2 + operandCount s.params (s.mem.read (s.pc + 1)))
    ∧ ∃ s : State, AtStore s ∧ (readReg .HL s).toNat = s.pc + 3
      ∧ operandCount s.params (s.mem.read (s.pc + 2)) = 0 + 1 ∧ s.pc + 3 + 0 ≤ 0xFFFF :=
  ⟨⟨coreAt 3 [(.HL, 5)] [(3, [0x36, 0xAF])], by decide⟩, ⟨coreAt 0xFFFD [(.HL, 0xFFFF)] [(0xFFFD, [0x36, 0xCB])], by decide⟩,
    ⟨coreAt 0xFFFC [(.HL, 0xFFFF)] [(0xFFFC, [0x36, 0x7C, 0xCB])], by decide⟩⟩

theorem witness_PairsAreViewsOfTheirHalves :
    (RegName.D, RegName.E, RegName.DE) ∈ [(RegName.A, RegName.F, RegName.AF), (.D, .E, .DE)] := by decide

/-- Program P5: the stored 0xAF is what the next step runs (A = 0x00, F = 0x80). -/
theorem test_p5_store_then_run : (match step (coreAt 3 [(.HL, 5)] [(3, [0x36, 0xAF])]) with
    | .next t => ends t 6 [(.AF, 0x0080)] [(5, 0xAF)]
    | _ => false) = true := by decide

end Sys2Proof.Tests
end

/-! Construction with the defaults of the parameters (rules R6 of 00_scope.md and R150 of 70_reset_and_hazards.md). -/

namespace Sys2Proof.Machine

/-- The two differ only in how memory is written: `reset` lists no cell, and the image that is `memBackground` everywhere
(the default `MEM_INIT`, R6) lists none either. -/
theorem reset_eq_construct_defaults : State.reset = State.construct defaultParams (fun _ => memBackground) := by
  have hmem : Memory.ofFunction (fun _ => memBackground) = [] := Memory.ofFunction_eq_nil fun _ => rfl
  rw [State.construct, hmem, State.reset]

/-- Settles O6: the literals of the statement are the values of `defaultParams` and `memBackground`. -/
theorem resetIsConstructionWithTheDefaults : Obligations.ResetIsConstructionWithTheDefaults :=
  ⟨reset_eq_construct_defaults, params_construct⟩

end Sys2Proof.Machine

/-! The register file: what each of the 13 names reads and writes (rules R11 to R16 of 10_state.md), and the pairs as views of
their halves (R12). -/

namespace Sys2Proof.Machine

/-! ### Bytes as words -/

/-- `{a, b}` (R7) by shift and or, as R12 writes it. -/
theorem joinBytes_eq_shiftLeft_or (hi lo : Byte) : joinBytes hi lo = (zext16 hi <<< 8) ||| zext16 lo := by
  have hhi := hi.isLt
  have hlo := lo.isLt
  apply BitVec.eq_of_toNat_eq
  rw [joinBytes_toNat, BitVec.toNat_or, BitVec.toNat_shiftLeft, zext16, zext16, BitVec.toNat_setWidth, BitVec.toNat_setWidth,
    Nat.mod_eq_of_lt (by omega : lo.toNat < 2 ^ 16), Nat.mod_eq_of_lt (by omega : hi.toNat < 2 ^ 16),
    Nat.mod_eq_of_lt (by rw [Nat.shiftLeft_eq]; omega), ← Nat.shiftLeft_add_eq_or_of_lt hlo, Nat.shiftLeft_eq]

theorem zext16_loByte (v : Word) : zext16 (loByte v) = v &&& 0xFF := by
  apply BitVec.eq_of_toNat_eq
  rw [BitVec.toNat_and, zext16, BitVec.toNat_setWidth, loByte_toNat, show (0xFF : Word).toNat = 2 ^ 8 - 1 from rfl,
    Nat.and_two_pow_sub_one_eq_mod]
  omega

theorem zext16_hiByte (v : Word) : zext16 (hiByte v) = v >>> 8 := by
  have := v.isLt
  apply BitVec.eq_of_toNat_eq
  rw [BitVec.toNat_ushiftRight, zext16, BitVec.toNat_setWidth, hiByte_toNat, Nat.shiftRight_eq_div_pow]
  omega

/-! ### Reading -/

theorem readReg_of_byte {n : RegName} (h : n.hiIndex = none) (s : State) : readReg n s = zext16 (s.rfByte n.loIndex) := by
  rw [readReg, h]

theorem readReg_of_word {n : RegName} {i : Fin 10} (h : n.hiIndex = some i) (s : State) :
    readReg n s = joinBytes (s.rfByte i) (s.rfByte n.loIndex) := by
  rw [readReg, h]

/-! ### Writing -/

theorem loIndex_ne_of_hiIndex {n : RegName} {i : Fin 10} (h : n.hiIndex = some i) : i ≠ n.loIndex := by
  cases n <;> cases h <;> decide

theorem rfByte_writeReg_loIndex (n : RegName) (v : Word) (s : State) : (writeReg n v s).rfByte n.loIndex = loByte v := by
  rw [rfByte_writeReg, if_pos rfl]

theorem rfByte_writeReg_hiIndex {n : RegName} {i : Fin 10} (h : n.hiIndex = some i) (v : Word) (s : State) :
    (writeReg n v s).rfByte i = hiByte v := by
  rw [rfByte_writeReg, if_neg (loIndex_ne_of_hiIndex h), if_pos h]

/-- Nothing but the bytes of the name written changes (R16, law 4). -/
theorem frame_writeReg (n : RegName) (v : Word) (s : State) : Frame n.bytes [] s (writeReg n v s) :=
  ⟨fun _ h => rfByte_writeReg_of_notMem h v s, fun _ _ => by rw [mem_writeReg], run_writeReg n v s, params_writeReg n v s⟩

theorem bytes_of_byte {n : RegName} (h : n.hiIndex = none) : n.bytes = [n.loIndex] := by
  rw [RegName.bytes, h]; rfl

theorem bytes_of_word {n : RegName} {i : Fin 10} (h : n.hiIndex = some i) : n.bytes = [i, n.loIndex] := by
  rw [RegName.bytes, h]; rfl

theorem readReg_writeReg_byte {n : RegName} (h : n.hiIndex = none) (v : Word) (s : State) :
    readReg n (writeReg n v s) = v &&& 0xFF := by
  rw [readReg_of_byte h, rfByte_writeReg_loIndex, zext16_loByte]

theorem readReg_writeReg_word {n : RegName} {i : Fin 10} (h : n.hiIndex = some i) (v : Word) (s : State) :
    readReg n (writeReg n v s) = v := by
  rw [readReg_of_word h, rfByte_writeReg_hiIndex h, rfByte_writeReg_loIndex, joinBytes_hi_lo]

/-- Two names without a common byte do not see each other's writes. -/
theorem readReg_writeReg_of_disjoint {m n : RegName} (h : ∀ i ∈ m.bytes, i ∉ n.bytes) (v : Word) (s : State) :
    readReg m (writeReg n v s) = readReg m s :=
  readReg_congr fun i hi => rfByte_writeReg_of_notMem (h i hi) v s

/-! ### The names and their bytes (R11, decision D10) -/

/-- The 8-bit registers, each with its byte. -/
def byteRegisters : List (RegName × Fin 10) :=
  [(.A, 0), (.F, 1), (.B, 2), (.C, 3), (.D, 4), (.E, 5), (.H, 6), (.L, 7)]

/-- The pairs and SP, each with its high and its low byte. -/
def wordRegisters : List (RegName × Fin 10 × Fin 10) :=
  [(.AF, 0, 1), (.BC, 2, 3), (.DE, 4, 5), (.HL, 6, 7), (.SP, 8, 9)]

theorem index_of_byteRegisters : ∀ p ∈ byteRegisters, p.1.hiIndex = none ∧ p.1.loIndex = p.2 := by decide

theorem indices_of_wordRegisters : ∀ p ∈ wordRegisters, p.1.hiIndex = some p.2.1 ∧ p.1.loIndex = p.2.2 := by decide

/-- Settles O1: a byte zero-extended, or two bytes joined, as a number. -/
theorem registerReadIsItsBytes : Obligations.RegisterReadIsItsBytes := by
  refine ⟨fun p hp s => ?_, fun p hp s => ?_⟩
  · obtain ⟨hhi, hlo⟩ := index_of_byteRegisters p hp
    rw [readReg_of_byte hhi, hlo, zext16, BitVec.toNat_setWidth]
    have := (s.rfByte p.2).isLt
    omega
  · obtain ⟨hhi, hlo⟩ := indices_of_wordRegisters p hp
    rw [readReg_of_word hhi, hlo, joinBytes_toNat]

/-- Settles O2: the bytes written by index, the frame of `writeReg` for everything else. -/
theorem registerWriteTouchesOnlyItsBytes : Obligations.RegisterWriteTouchesOnlyItsBytes := by
  refine ⟨fun p hp v s => ?_, fun p hp v s => ?_, fun n v s => ?_⟩
  · obtain ⟨hhi, hlo⟩ := index_of_byteRegisters p hp
    obtain ⟨hrf, -⟩ := frame_writeReg p.1 v s
    rw [bytes_of_byte hhi] at hrf
    rw [← hlo]
    exact ⟨by rw [rfByte_writeReg_loIndex, loByte_toNat], hrf⟩
  · obtain ⟨hhi, hlo⟩ := indices_of_wordRegisters p hp
    obtain ⟨hrf, -⟩ := frame_writeReg p.1 v s
    rw [bytes_of_word hhi] at hrf
    rw [← hlo]
    exact ⟨by rw [rfByte_writeReg_hiIndex hhi, hiByte_toNat], by rw [rfByte_writeReg_loIndex, loByte_toNat], hrf⟩
  · obtain ⟨-, -, hrun⟩ := frame_writeReg n v s
    exact ⟨pc_writeReg n v s, mem_writeReg n v s, hrun⟩

/-! ### Pairs and their halves (R12) -/

/-- `pair` is the register pair whose high byte is the register `hi` and whose low byte is the register `lo`. -/
structure IsPairOf (hi lo pair : RegName) : Prop where
  highIsByte : hi.hiIndex = none
  lowIsByte  : lo.hiIndex = none
  highIndex  : pair.hiIndex = some hi.loIndex
  lowIndex   : pair.loIndex = lo.loIndex
  adjacent   : lo.loIndex.val = hi.loIndex.val + 1

/-- The four pairs, each behind its high and its low half. -/
def registerPairs : List (RegName × RegName × RegName) :=
  [(.A, .F, .AF), (.B, .C, .BC), (.D, .E, .DE), (.H, .L, .HL)]

theorem isPairOf_of_registerPairs {p : RegName × RegName × RegName} (h : p ∈ registerPairs) :
    IsPairOf p.1 p.2.1 p.2.2 := by
  fin_cases h <;> exact ⟨rfl, rfl, rfl, rfl, rfl⟩

namespace IsPairOf

variable {hi lo pair : RegName} (h : IsPairOf hi lo pair)
include h

/-- A pair reads `(high << 8) | low`. -/
theorem readReg_pair (s : State) : readReg pair s = (readReg hi s <<< 8) ||| readReg lo s := by
  rw [readReg_of_word h.highIndex, readReg_of_byte h.highIsByte, readReg_of_byte h.lowIsByte, h.lowIndex,
    joinBytes_eq_shiftLeft_or]

theorem bytes_pair : pair.bytes = [hi.loIndex, lo.loIndex] := by
  rw [bytes_of_word h.highIndex, h.lowIndex]

theorem loIndex_ne : hi.loIndex ≠ lo.loIndex := fun e => by
  have := h.adjacent
  rw [e] at this
  omega

/-- Writing the high half leaves the low half alone. -/
theorem readReg_low_writeReg_high (v : Word) (s : State) : readReg lo (writeReg hi v s) = readReg lo s :=
  readReg_writeReg_of_disjoint (by simp [bytes_of_byte h.highIsByte, bytes_of_byte h.lowIsByte, h.loIndex_ne.symm]) v s

/-- Writing the low half leaves the high half alone. -/
theorem readReg_high_writeReg_low (v : Word) (s : State) : readReg hi (writeReg lo v s) = readReg hi s :=
  readReg_writeReg_of_disjoint (by simp [bytes_of_byte h.highIsByte, bytes_of_byte h.lowIsByte, h.loIndex_ne]) v s

theorem readReg_high_writeReg_pair (v : Word) (s : State) : readReg hi (writeReg pair v s) = v >>> 8 := by
  rw [readReg_of_byte h.highIsByte, rfByte_writeReg_hiIndex h.highIndex, zext16_hiByte]

theorem readReg_low_writeReg_pair (v : Word) (s : State) : readReg lo (writeReg pair v s) = v &&& 0xFF := by
  rw [readReg_of_byte h.lowIsByte, ← h.lowIndex, rfByte_writeReg_loIndex, zext16_loByte]

end IsPairOf

/-- Settles O56: every clause is a law of `IsPairOf`, the writes of one half through `readReg_pair`. -/
theorem pairsAreViewsOfTheirHalves : Obligations.PairsAreViewsOfTheirHalves := by
  intro p hp v s
  have h := isPairOf_of_registerPairs hp
  refine ⟨h.readReg_pair s, h.bytes_pair, h.adjacent, ?_, ?_, h.readReg_high_writeReg_pair v s,
    h.readReg_low_writeReg_pair v s⟩
  · rw [h.readReg_pair, readReg_writeReg_byte h.highIsByte, h.readReg_low_writeReg_high]
  · rw [h.readReg_pair, h.readReg_high_writeReg_low, readReg_writeReg_byte h.lowIsByte]

/-- Settles O3: law 3 reads the pair by its halves, after each half was written; law 4 is the frame of `writeReg`. -/
theorem registerFileLaws : Obligations.RegisterFileLaws := by
  have hword : ∀ n ∈ [RegName.AF, .BC, .DE, .HL, .SP], ∃ i, n.hiIndex = some i := by decide
  have hbyte : ∀ n ∈ [RegName.A, .F, .B, .C, .D, .E, .H, .L], n.hiIndex = none := by decide
  refine ⟨fun n hn v s => ?_, fun n hn v s => readReg_writeReg_byte (hbyte n hn) v s, fun p hp v w s => ?_,
    fun n v s => ⟨frame_writeReg n v s, pc_writeReg n v s⟩⟩
  · obtain ⟨i, hi⟩ := hword n hn
    exact readReg_writeReg_word hi v s
  · have h := isPairOf_of_registerPairs hp
    rw [h.readReg_pair, h.readReg_high_writeReg_low, readReg_writeReg_byte h.highIsByte, readReg_writeReg_byte h.lowIsByte]

end Sys2Proof.Machine

/-! The flags as bits of F (rules R17, R18 of 10_state.md). -/

namespace Sys2Proof.Machine

theorem getFlag_eq_getLsbD_readReg (x : FlagName) (s : State) : getFlag x s = (readReg .F s).getLsbD x.bitIndex :=
  (getLsbD_readReg_F s x.bitIndex).symm

theorem getLsbD_readReg_F_setFlag_of_ne {x : FlagName} {j : Nat} (h : j ≠ x.bitIndex) (b : Bool) (s : State) :
    (readReg .F (setFlag x b s)).getLsbD j = (readReg .F s).getLsbD j := by
  rw [getLsbD_readReg_F, fBit_setFlag, if_neg h, getLsbD_readReg_F]

theorem frame_setFlag (x : FlagName) (b : Bool) (s : State) : Frame RegName.F.bytes [] s (setFlag x b s) :=
  ⟨fun _ h => rfByte_setFlag_of_ne x b s (List.ne_of_not_mem_cons h), fun _ _ => rfl, rfl, rfl⟩

/-- Settles O4: the listed bit is `bitIndex`, and `setBit` changes that bit of F only. -/
theorem flagAccessIsOneBitOfF : Obligations.FlagAccessIsOneBitOfF := by
  intro p hp s b
  have hbit : ∀ p ∈ [(FlagName.Z, 7), (.N, 6), (.H, 5), (.C, 4)], p.2 = p.1.bitIndex := by decide
  rw [hbit p hp]
  exact ⟨getFlag_eq_getLsbD_readReg p.1 s, by rw [getFlag_setFlag, if_pos rfl],
    fun _ _ hj => getLsbD_readReg_F_setFlag_of_ne hj b s, frame_setFlag p.1 b s, pc_setFlag p.1 b s⟩

end Sys2Proof.Machine

/-! Which instructions write F and SP (rules R13, R19, R20, R30, R90, R121), read off the bytes each category writes. -/

namespace Sys2Proof.Machine

/-- Every category leaves alone a register none of whose bytes it writes. -/
theorem Category.readReg_result {n : RegName} {k : Category} (h : ∀ b ∈ n.bytes, b ∉ k.regs) (s : State) :
    readReg n (k.result s) = readReg n s := by
  obtain ⟨hrf, -⟩ := k.result_frame s
  exact readReg_congr fun b hb => hrf b (h b hb)

/-! ### SP -/

theorem prefixedCategory_regs (q : Prefixed) :
    (prefixedCategory q).regs = RegName.F.bytes ∨ (prefixedCategory q).regs = [] := by
  cases q with
  | bit b r => exact .inl rfl
  | nop op => exact .inr rfl

/-- Only the two loads into SP have a byte of SP among the bytes they write. -/
theorem spBytes_notMem_regs (p : Params) (i : Instr) :
    (∀ b ∈ RegName.SP.bytes, b ∉ (category p i).regs) ∨ i = .ld_SP_HL ∨ ∃ v, i = .ld_SP_d16 v := by
  cases i with
  | ld_SP_HL => exact .inr (.inl rfl)
  | ld_SP_d16 v => exact .inr (.inr ⟨v, rfl⟩)
  | prefixCb op2 =>
    left
    rw [category]
    rcases prefixedCategory_regs (decodeSecondary p op2) with h | h <;> rw [h] <;> decide
  | _ => exact .inl (by simp only [category, Category.regs]; decide)

/-- Settles O52: an instruction of another category keeps both bytes of SP. -/
theorem onlySpLoadsWriteSp : Obligations.OnlySpLoadsWriteSp := by
  intro i s t h hsp
  obtain ⟨rfl, -⟩ := exec_next h
  exact (spBytes_notMem_regs s.params i).resolve_left fun hn => hsp (Category.readReg_result hn s)

/-! ### F -/

/-- `resolvePrefix` does not change the category. -/
theorem category_resolvePrefix (p : Params) (i : Instr) : category p (resolvePrefix p i) = category p i := by
  cases i with
  | prefixCb op2 => exact category_toInstr p (decodeSecondary p op2)
  | _ => rfl

theorem prefixedCategory_ne_xor (q : Prefixed) (r : RegName) : prefixedCategory q ≠ .xor r := by
  cases q <;> exact Category.noConfusion

theorem mem_xors_of_category {p : Params} {i : Instr} {r : RegName} (h : category p i = .xor r) :
    resolvePrefix p i ∈ xors.map (·.1) := by
  cases i with
  | prefixCb op2 => exact absurd h (prefixedCategory_ne_xor _ r)
  | _ => cases h <;> simp [resolvePrefix, xors]

theorem toInstr_bit_mem_bitTests (b : Fin 8) (r : BitReg) : (Prefixed.bit b r).toInstr ∈ bitTests.map (·.1) := by
  revert b
  cases r <;> decide

theorem mem_bitTests_of_category {p : Params} {i : Instr} {b : Fin 8} {r : RegName} (h : category p i = .bit b r) :
    resolvePrefix p i ∈ bitTests.map (·.1) := by
  cases i with
  | prefixCb op2 =>
    rw [category] at h
    rw [resolvePrefix]
    cases hq : decodeSecondary p op2 with
    | bit b' r' => exact toInstr_bit_mem_bitTests b' r'
    | nop op => rw [hq] at h; cases h
  | _ => cases h <;> simp [resolvePrefix, bitTests]

/-- Settles O49: any other category has no byte of F among those it writes. -/
theorem onlyXorAndBitWriteF : Obligations.OnlyXorAndBitWriteF := by
  intro i s t h hF
  obtain ⟨rfl, -⟩ := exec_next h
  rw [List.mem_append]
  rcases fByte_notMem_regs s.params i with hn | ⟨r, hk⟩ | ⟨b, r, hk⟩
  · exact absurd (Category.readReg_result (n := .F) (List.forall_mem_singleton.mpr hn) s) hF
  · exact .inl (mem_xors_of_category hk)
  · exact .inr (mem_bitTests_of_category hk)

/-- The carry flag and F bits 3:0 are never set: `XOR r` clears them, `BIT b,r` and all else keep them. -/
theorem fBit_result_of_lt {j : Nat} (hj : j < 5) (p : Params) (i : Instr) (s : State)
    (h : (((category p i).result s).rfByte fByte).getLsbD j = true) : (s.rfByte fByte).getLsbD j = true := by
  rcases fByte_notMem_regs p i with hn | ⟨r, hk⟩ | ⟨b, r, hk⟩
  · obtain ⟨hrf, -⟩ := (category p i).result_frame s
    rwa [hrf fByte hn] at h
  · rw [hk, Category.result, fByte, rfByte_xorFlags, if_pos rfl] at h
    split at h <;> exact absurd h (by interval_cases j <;> decide)
  · rw [hk, Category.result, fByte, fBit_bitFlags, if_neg (by omega), if_neg (by omega), if_neg (by omega)] at h
    exact h

/-- Settles O50: `fBit_result_of_lt` on the register F. -/
theorem noInstructionSetsCarry : Obligations.NoInstructionSetsCarry := by
  intro i s t h j hj hbit
  obtain ⟨rfl, -⟩ := exec_next h
  rw [getLsbD_readReg_F] at hbit ⊢
  exact fBit_result_of_lt hj s.params i s hbit

end Sys2Proof.Machine

/-! The run status and the parameters (R6 of 00_scope.md, R28 of 10_state.md, log entry 3): marking a state faulted commutes
with every update. -/

namespace Sys2Proof.Machine

@[simp] theorem rfByte_markFaulted (s : State) (c : Fault) (i : Fin 10) : (s.markFaulted c).rfByte i = s.rfByte i := rfl
@[simp] theorem pc_markFaulted (s : State) (c : Fault) : (s.markFaulted c).pc = s.pc := rfl
@[simp] theorem mem_markFaulted (s : State) (c : Fault) : (s.markFaulted c).mem = s.mem := rfl
@[simp] theorem params_markFaulted (s : State) (c : Fault) : (s.markFaulted c).params = s.params := rfl
@[simp] theorem readReg_markFaulted (n : RegName) (s : State) (c : Fault) : readReg n (s.markFaulted c) = readReg n s :=
  readReg_congr fun _ _ => rfl
@[simp] theorem writeReg_markFaulted (n : RegName) (v : Word) (s : State) (c : Fault) :
    writeReg n v (s.markFaulted c) = (writeReg n v s).markFaulted c := by
  cases n <;> rfl
@[simp] theorem setMem_markFaulted (s : State) (c : Fault) (m : Memory) :
    (s.markFaulted c).setMem m = (s.setMem m).markFaulted c := rfl
@[simp] theorem setPc_markFaulted (s : State) (c : Fault) (v : Nat) :
    (s.markFaulted c).setPc v = (s.setPc v).markFaulted c := rfl
@[simp] theorem getFlag_markFaulted (x : FlagName) (s : State) (c : Fault) : getFlag x (s.markFaulted c) = getFlag x s := rfl
@[simp] theorem xorFlags_markFaulted (res : Byte) (s : State) (c : Fault) :
    xorFlags res (s.markFaulted c) = (xorFlags res s).markFaulted c := rfl
@[simp] theorem bitFlags_markFaulted (tested : Bool) (s : State) (c : Fault) :
    bitFlags tested (s.markFaulted c) = (bitFlags tested s).markFaulted c := rfl
@[simp] theorem regAddress_markFaulted (n : RegName) (s : State) (c : Fault) :
    regAddress n (s.markFaulted c) = regAddress n s := by
  rw [regAddress, readReg_markFaulted, regAddress]
@[simp] theorem storedByte_markFaulted (n : RegName) (s : State) (c : Fault) :
    storedByte n (s.markFaulted c) = storedByte n s := by
  rw [storedByte, readReg_markFaulted, storedByte]
@[simp] theorem regBit_markFaulted (b : Fin 8) (n : RegName) (s : State) (c : Fault) :
    regBit b n (s.markFaulted c) = regBit b n s := by
  rw [regBit, readReg_markFaulted, regBit]

/-- A handler computes the same, whatever `run` is. -/
theorem Category.result_markFaulted (k : Category) (s : State) (c : Fault) :
    k.result (s.markFaulted c) = (k.result s).markFaulted c := by
  cases k with
  | jump x d => by_cases h : getFlag x s = false <;> simp [result, h]
  | _ => simp [result]

/-- A handler raises the same fault, whatever `run` is. -/
theorem Category.faultsAs_markFaulted (k : Category) (s : State) (c d : Fault) :
    k.FaultsAs (s.markFaulted c) d ↔ k.FaultsAs s d := by
  cases k <;> simp [FaultsAs]

/-- Settles O54: result and fault of a category do not depend on `run`, and its frame keeps `run` and the parameters. -/
theorem noInstructionSeesTheRunStatus : Obligations.NoInstructionSeesTheRunStatus := by
  refine fun i s c => ⟨fun t h => ?_, fun d h => ?_⟩
  · obtain ⟨rfl, hno⟩ := exec_next h
    obtain ⟨-, -, hrun⟩ := (category s.params i).result_frame s
    refine ⟨hrun, ?_⟩
    rw [← Category.result_markFaulted]
    exact exec_result fun d hd => hno d ((Category.faultsAs_markFaulted _ s c d).mp hd)
  · rw [exec_fault_iff] at h ⊢
    exact (Category.faultsAs_markFaulted _ s c d).mpr h

end Sys2Proof.Machine


/-! The lengths of decoded instructions (rules R60, R61 of 30_encoding.md), and decoding of a longer list of bytes. -/

namespace Sys2Proof

/-- The instructions of a form are as long as the opcode byte and the operand bytes it asks for (R61). -/
def OpcodeForm.HasLength : OpcodeForm → Prop
  | .op i   => i.length = 1
  | .d8 mk  => ∀ b, (mk b).length = 2
  | .d16 mk => ∀ v, (mk v).length = 3

/-- Each row of the grid of R71 has the format of its operands. -/
theorem primaryMap_hasLength (op : Byte) : (primaryMap op).HasLength := by
  unfold primaryMap
  split <;> simp only [OpcodeForm.HasLength] <;> intros <;> rfl

theorem primaryForm_hasLength (p : Params) (op : Byte) : (primaryForm p op).HasLength := by
  unfold primaryForm
  split
  · rfl
  · exact primaryMap_hasLength op

theorem length_of_decodePrimary {p : Params} {op : Byte} {bs rest : List Byte} {i : Instr}
    (h : decodePrimary p (op :: bs) = .ok (i, rest)) : i.length = operandCount p op + 1 := by
  have hlen := primaryForm_hasLength p op
  rw [operandCount_eq]
  rcases decodePrimary_ok h with ⟨hf, -⟩ | ⟨mk, b, hf, rfl, -⟩ | ⟨mk, lo, hi, hf, rfl, -⟩ <;> rw [hf] at hlen ⊢
  · exact hlen
  · exact hlen b
  · exact hlen (joinBytes hi lo)

/-- Decoding an opcode byte takes exactly its operand bytes off the list. -/
theorem length_rest_of_decodePrimary {p : Params} {op : Byte} {bs rest : List Byte} {i : Instr}
    (h : decodePrimary p (op :: bs) = .ok (i, rest)) : bs.length = operandCount p op + rest.length := by
  rw [operandCount_eq]
  rcases decodePrimary_ok h with ⟨hf, rfl⟩ | ⟨mk, b, hf, -, rfl⟩ | ⟨mk, lo, hi, hf, -, rfl⟩ <;> rw [hf]
  · exact (Nat.zero_add _).symm
  · exact Nat.add_comm _ 1
  · exact Nat.add_comm _ 2

/-- Bytes after an instruction do not change what it decodes to. -/
theorem decodePrimary_append {p : Params} {bs rest : List Byte} {i : Instr} (h : decodePrimary p bs = .ok (i, rest))
    (more : List Byte) : decodePrimary p (bs ++ more) = .ok (i, rest ++ more) := by
  cases bs with
  | nil => cases h
  | cons op bs =>
    rcases decodePrimary_ok h with ⟨hf, rfl⟩ | ⟨mk, b, hf, rfl, rfl⟩ | ⟨mk, lo, hi, hf, rfl, rfl⟩ <;>
      exact decodePrimary_of_form hf _

theorem length_toInstr (q : Prefixed) : q.toInstr.length = 2 := by
  cases q with
  | nop op => rfl
  | bit b r => fin_cases b <;> cases r <;> rfl

/-- The prefixed instruction is as long as `prefixCb` with its operand byte (R60). -/
theorem length_resolvePrefix (p : Params) (i : Instr) : (resolvePrefix p i).length = i.length := by
  cases i with
  | prefixCb op2 => exact length_toInstr (decodeSecondary p op2)
  | _ => rfl

/-- `decode` is `decodePrimary`, then `resolvePrefix`. -/
theorem decode_ok {p : Params} {bs rest : List Byte} {i : Instr} (h : decode p bs = .ok (i, rest)) :
    ∃ j, decodePrimary p bs = .ok (j, rest) ∧ i = resolvePrefix p j := by
  rw [decode] at h
  cases hj : decodePrimary p bs with
  | error e => rw [hj] at h; cases h
  | ok r => rw [hj] at h; cases h; exact ⟨r.1, rfl, rfl⟩

end Sys2Proof

/-! The program counter after a completed step (rules R22, R83), and what a completed step keeps (R19, R23, R121). -/

namespace Sys2Proof.Machine

@[simp] theorem getFlag_setPc (x : FlagName) (s : State) (v : Nat) : getFlag x (s.setPc v) = getFlag x s := rfl

theorem Memory.bytesAt_add (m : Memory) (n k : Nat) :
    ∀ addr, m.bytesAt addr (n + k) = m.bytesAt addr n ++ m.bytesAt (addr + n) k := by
  induction n with
  | zero => intro addr; rw [Nat.zero_add]; rfl
  | succ n ih =>
    intro addr
    rw [Nat.succ_add, bytesAt, ih, bytesAt, Nat.add_assoc addr 1 n, Nat.add_comm 1 n]
    rfl

/-- Any number of bytes at `pc` that decodes gives the instruction that a step reads there. -/
theorem eq_resolvePrefix_of_decode {s : State} {n : Nat} {i j : Instr} {rest : List Byte}
    (hi : decode s.params (s.mem.bytesAt s.pc n) = .ok (i, rest))
    (hj : decodePrimary s.params (s.mem.bytesAt s.pc (s.operandsAt + 1)) = .ok (j, [])) : i = resolvePrefix s.params j := by
  obtain ⟨j', hj', rfl⟩ := decode_ok hi
  cases n with
  | zero => cases hj'
  | succ n =>
    have hlen : n = s.operandsAt + rest.length := by
      have := length_rest_of_decodePrimary hj'
      rwa [Memory.length_bytesAt] at this
    have happ := decodePrimary_append hj (s.mem.bytesAt (s.pc + (s.operandsAt + 1)) rest.length)
    rw [← Memory.bytesAt_add, show s.operandsAt + 1 + rest.length = n + 1 by omega, hj'] at happ
    injection happ with happ
    exact congrArg (resolvePrefix s.params) (congrArg Prod.fst happ)

/-- The two jumps are the only instructions of the jump category (R120, R121). -/
theorem category_eq_jump {p : Params} {i : Instr} {x : FlagName} {d : Byte} (h : category p i = .jump x d) :
    (x = .Z ∧ i = .jr_NZ_d8 d) ∨ (x = .C ∧ i = .jr_NC_d8 d) := by
  cases i with
  | jr_NZ_d8 => cases h; exact .inl ⟨rfl, rfl⟩
  | jr_NC_d8 => cases h; exact .inr ⟨rfl, rfl⟩
  | prefixCb op2 =>
    rw [category] at h
    cases hq : decodeSecondary p op2 <;> rw [hq] at h <;> cases h
  | _ => cases h

theorem Category.pc_result_of_ne_jump {k : Category} (h : ∀ x d, k ≠ .jump x d) (s : State) : (k.result s).pc = s.pc := by
  rw [result_pc]
  cases k with
  | jump x d => exact absurd rfl (h x d)
  | _ => rfl

theorem Category.pc_result_jump (x : FlagName) (d : Byte) (s : State) :
    ((Category.jump x d).result s).pc = if getFlag x s = false then jumpTarget s.pc d else s.pc :=
  result_pc (.jump x d) s

/-- A completed step executes the instruction decoded at `pc` with `pc` at its last byte; the outer advance follows. -/
theorem pc_of_step_next {s t : State} {n : Nat} {i : Instr} {rest : List Byte}
    (hi : decode s.params (s.mem.bytesAt s.pc n) = .ok (i, rest)) (h : step s = .next t) :
    ∃ k, i.length = k + 1 ∧ t.pc = ((category s.params i).result (s.setPc (s.pc + k))).pc + 1 := by
  obtain ⟨-, -, j, hj, -, rfl⟩ := step_next h
  obtain rfl := eq_resolvePrefix_of_decode hi hj
  refine ⟨s.operandsAt, ?_, ?_⟩
  · rw [length_resolvePrefix]
    exact length_of_decodePrimary hj
  · rw [category_resolvePrefix]
    rfl

/-- A jump with its opcode byte at `pc`, after the outer advance: the `- 1` of `jumpTarget` and the operand fetch cancel. -/
theorem pc_jump_add_one (x : FlagName) (d : Byte) (s : State) :
    ((Category.jump x d).result (s.setPc (s.pc + 1))).pc + 1
      = if getFlag x s = false then s.pc + d.toNat + 1 else s.pc + 2 := by
  rw [Category.pc_result_jump, getFlag_setPc, pc_setPc, jumpTarget]
  split <;> omega

/-- Settles O22: the two jumps by `pc_jump_add_one`; every other category leaves `pc` at the last byte. -/
theorem programCounterAccounting : Obligations.ProgramCounterAccounting := by
  intro s t n i rest hi h
  obtain ⟨k, hlen, hpc⟩ := pc_of_step_next hi h
  split
  · next d =>
    cases hlen
    exact hpc.trans (pc_jump_add_one .Z d s)
  · next d =>
    cases hlen
    exact hpc.trans (pc_jump_add_one .C d s)
  · next hnz hnc =>
    have hne : ∀ x d, category s.params i ≠ .jump x d := by
      intro x d hk
      rcases category_eq_jump hk with ⟨-, rfl⟩ | ⟨-, rfl⟩
      · exact hnz d rfl
      · exact hnc d rfl
    rw [hpc, Category.pc_result_of_ne_jump hne, pc_setPc, hlen, Nat.add_assoc]

/-! ### The invariant of a run -/

/-- A jump adds at most 255 - 1 (R122); every other handler leaves `pc`. -/
theorem Category.pc_result_le (k : Category) (s : State) : (k.result s).pc ≤ s.pc + 254 := by
  cases k with
  | jump x d =>
    have := d.isLt
    rw [pc_result_jump, jumpTarget]
    split <;> omega
  | _ => exact (pc_result_of_ne_jump (fun _ _ => Category.noConfusion) s).trans_le (Nat.le_add_right _ _)

/-- Settles O45: memory by `result_wf`, `pc` by `pc_result_le`, `run` by the frame, the flags by `fBit_result_of_lt`. -/
theorem stepKeepsTheInvariant : Obligations.StepKeepsTheInvariant := by
  intro s t hs h
  obtain ⟨-, hlast, i, -, hrun, rfl⟩ := step_next h
  obtain ⟨-, -, hsame, -⟩ := (category s.params i).result_frame (s.setPc (s.pc + s.operandsAt))
  have hF : ∀ j, j < 5 → (s.rfByte fByte).getLsbD j = false →
      (((category s.params i).result (s.setPc (s.pc + s.operandsAt))).rfByte fByte).getLsbD j = false := by
    intro j hj hclear
    rw [Bool.eq_false_iff] at hclear ⊢
    exact mt (fBit_result_of_lt hj s.params i _) hclear
  exact {
    memCanonical := Category.result_wf hrun hs.memCanonical
    pcBound := by
      have := (category s.params i).pc_result_le (s.setPc (s.pc + s.operandsAt))
      rw [pc_setPc] at this ⊢
      rw [memSize] at hlast
      omega
    isRunning := hsame.trans hs.isRunning
    fLowClear := fun j hj => hF j (by omega) (hs.fLowClear j hj)
    carryClear := hF 4 (by omega) hs.carryClear }

theorem inv_construct (p : Params) (memInit : Nat → Byte) : (State.construct p memInit).Inv where
  memCanonical := Memory.wf_ofFunction memInit
  pcBound      := Nat.zero_le _
  isRunning    := rfl
  fLowClear    := fun i _ => by rw [rfByte_construct]; exact BitVec.getLsbD_zero
  carryClear   := by rw [getFlag, rfByte_construct]; exact BitVec.getLsbD_zero

/-- Settles O46: `State.reset` is a construction as well. -/
theorem constructionEstablishesTheInvariant : Obligations.ConstructionEstablishesTheInvariant :=
  ⟨inv_construct, reset_eq_construct_defaults ▸ inv_construct defaultParams _⟩

end Sys2Proof.Machine

/-! Words and memory (rules R7, R40 to R43 of 20_memory.md). -/

namespace Sys2Proof.Machine

/-- Settles O9: the laws of `joinBytes`, `hiByte` and `loByte`. -/
theorem splitAndJoinOfAWord : Obligations.SplitAndJoinOfAWord :=
  ⟨joinBytes_hi_lo, fun hi lo => ⟨joinBytes_toNat hi lo, hiByte_joinBytes hi lo, loByte_joinBytes hi lo⟩⟩

/-- A read depends on the byte at its address only. -/
theorem memRead_congr {a : Nat} {s t : State} (h : t.mem.read a = s.mem.read a) : memRead a t = memRead a s := by
  rw [memRead, h, memRead]

/-- A store changes nothing but the byte at its address. -/
theorem frame_setMem_write (a : Nat) (b : Byte) (s : State) : Frame [] [a] s (s.setMem (s.mem.write a b)) :=
  ⟨fun _ _ => rfl, fun _ h => Memory.read_write_of_ne _ b (List.ne_of_not_mem_cons h), rfl, rfl⟩

/-- Settles O7: after a write the address reads the byte by `read_write_self`, every other by `read_write_of_ne`; before any
write memory is the image. -/
theorem memoryReadsTheByteLastWritten : Obligations.MemoryReadsTheByteLastWritten := by
  refine ⟨fun s hwf a b => ⟨fun ha => ?_, fun ha => ?_⟩, fun p memInit a ha => ?_⟩
  · have hlt : a < memSize := Nat.lt_succ_of_le ha
    refine ⟨memRead_of_lt hlt s, _, memWrite_of_lt hlt b s, ?_, fun a' hne => ?_, frame_setMem_write a b s, rfl,
      Memory.wf_write hwf hlt b⟩
    · rw [memRead_of_lt hlt, mem_setMem, Memory.read_write_self hwf]
    · exact memRead_congr (Memory.read_write_of_ne s.mem b hne)
  · exact ⟨memRead_of_ge ha s, memWrite_of_ge ha b s⟩
  · have hlt : a < memSize := Nat.lt_succ_of_le ha
    rw [memRead_of_lt hlt, mem_construct, Memory.read_ofFunction, if_pos hlt]
    exact ⟨rfl, Memory.wf_ofFunction memInit⟩

end Sys2Proof.Machine

/-! Which instructions change memory, and where (rules R42, R46 of 20_memory.md), read off the addresses each category stores
to. -/

namespace Sys2Proof.Machine

theorem prefixedCategory_stored (q : Prefixed) (s : State) : (prefixedCategory q).stored s = [] := by
  cases q <;> rfl

/-- Only the stores have an address in the list of their category: the address register's, or a16 and a16 + 1. -/
theorem store_of_mem_stored {p : Params} {i : Instr} {s : State} {a : Nat} (h : a ∈ (category p i).stored s) :
    (∃ r ∈ memStores, i = r.1 ∧ a = (readReg r.2.1 s).toNat)
    ∨ (∃ b, i = .ld_atHL_d8 b ∧ a = (readReg .HL s).toNat)
    ∨ ((i = .ld_atHLinc_A ∨ i = .ld_atHLdec_A) ∧ a = (readReg .HL s).toNat)
    ∨ (∃ a16, i = .ld_atA16_SP a16 ∧ (a = a16.toNat ∨ a = a16.toNat + 1)) := by
  cases i with
  | ld_atBC_A | ld_atDE_A | ld_atHL_B | ld_atHL_C | ld_atHL_D | ld_atHL_E | ld_atHL_H | ld_atHL_L | ld_atHL_A =>
    exact .inl (by simpa [memStores, regAddress] using List.mem_singleton.mp h)
  | ld_atHL_d8 b => exact .inr (.inl ⟨b, rfl, List.mem_singleton.mp h⟩)
  | ld_atHLinc_A => exact .inr (.inr (.inl ⟨.inl rfl, List.mem_singleton.mp h⟩))
  | ld_atHLdec_A => exact .inr (.inr (.inl ⟨.inr rfl, List.mem_singleton.mp h⟩))
  | ld_atA16_SP a16 => exact .inr (.inr (.inr ⟨a16, rfl, List.mem_pair.mp h⟩))
  | prefixCb op2 =>
    rw [category, prefixedCategory_stored] at h
    cases h
  | _ => cases h

/-- Settles O53: by the frame of its category an instruction keeps every address it does not store to. -/
theorem onlyStoresChangeMemory : Obligations.OnlyStoresChangeMemory := by
  intro i s t h a hne
  obtain ⟨rfl, -⟩ := exec_next h
  obtain ⟨-, hmem, -⟩ := (category s.params i).result_frame s
  exact store_of_mem_stored (not_not.mp fun hn => hne (hmem a hn))

end Sys2Proof.Machine

/-! A store is seen by the fetches of the next step (rules R53, R81, R82, R95). -/

namespace Sys2Proof.Machine

/-! ### The bytes a fetch reads after a store -/

/-- A store below the bytes read does not change them. -/
theorem Memory.bytesAt_write_of_lt (m : Memory) {a : Nat} (b : Byte) (n : Nat) :
    ∀ {addr}, a < addr → (m.write a b).bytesAt addr n = m.bytesAt addr n := by
  induction n with
  | zero => exact fun _ => rfl
  | succ n ih => exact fun h => congrArg₂ List.cons (read_write_of_ne m b (Nat.ne_of_gt h)) (ih (Nat.lt_succ_of_lt h))

theorem Memory.bytesAt_write_self {m : Memory} (hm : m.wf) (a : Nat) (b : Byte) (n : Nat) :
    (m.write a b).bytesAt a (n + 1) = b :: m.bytesAt (a + 1) n :=
  congrArg₂ List.cons (read_write_self hm a b) (bytesAt_write_of_lt m b n (Nat.lt_succ_self a))

/-- A store to the second of the bytes read. -/
theorem Memory.bytesAt_write_succ {m : Memory} (hm : m.wf) (a : Nat) (b : Byte) (n : Nat) :
    (m.write (a + 1) b).bytesAt a (n + 2) = m.read a :: b :: m.bytesAt (a + 2) n :=
  congrArg₂ List.cons (read_write_of_ne m b (Nat.ne_of_lt (Nat.lt_succ_self a))) (bytesAt_write_self hm (a + 1) b n)

/-! ### One step, by where its bytes lie -/

/-- All bytes of the instruction lie inside memory: the step fetches them and executes what they decode to. -/
theorem fetchInstr_and_step_of_lt {s : State} {k : Nat} {bs : List Byte} (hr : s.run = .running) (hk : s.operandsAt = k)
    (hlt : s.pc + k < memSize) (hbs : s.mem.bytesAt s.pc (k + 1) = bs) :
    fetchInstr s = .ok (bs, s.setPc (s.pc + k))
    ∧ ∃ i, decodePrimary s.params bs = .ok (i, []) ∧ step s = outerAdvance (exec i (s.setPc (s.pc + k))) := by
  subst hk hbs
  refine ⟨fetchInstr_of_lt hlt, ?_⟩
  rcases step_running hr with ⟨hge, -⟩ | ⟨-, hge, -⟩ | ⟨-, h⟩
  · omega
  · omega
  · exact h

/-- An operand byte would lie above memory. -/
theorem step_of_operand_ge {s : State} (hr : s.run = .running) (hlt : s.pc < memSize) (hge : memSize ≤ s.pc + s.operandsAt) :
    step s = .fault (.outOfBounds memSize) := by
  rcases step_running hr with ⟨hge', -⟩ | ⟨-, -, h⟩ | ⟨hlt', -⟩
  · omega
  · exact h
  · omega

/-! ### The storing step -/

/-- The state after a step at `LD (HL),d8` (R95): the operand byte at the address in HL, `pc` after the operand. -/
def State.afterStoreImm (s : State) : State :=
  (s.setMem (s.mem.write (readReg .HL s).toNat (s.mem.read (s.pc + 1)))).setPc (s.pc + 2)

theorem step_ld_atHL_d8 {s : State} (hr : s.run = .running) (hpc : s.pc + 1 < memSize) (hop : s.opcodeAt = 0x36)
    (has : s.params.assignsPrimary 0x36 = true) : step s = .next s.afterStoreImm := by
  have hform : primaryForm s.params 0x36 = .d8 .ld_atHL_d8 := primaryForm_of_assigned has
  have hcount : s.operandsAt = 1 := by rw [State.operandsAt, hop, operandCount_eq, hform]; rfl
  have hbytes : s.mem.bytesAt s.pc 2 = [0x36, s.mem.read (s.pc + 1)] := congrArg (· :: [s.mem.read (s.pc + 1)]) hop
  obtain ⟨-, i, hi, hstep⟩ := fetchInstr_and_step_of_lt hr hcount hpc hbytes
  rw [decodePrimary_of_form hform] at hi
  cases hi
  rw [hstep, exec_result fun _ => id]
  rfl

/-- Settles O55: the next step reads the bytes that `bytesAt_write_self` and `bytesAt_write_succ` give. -/
theorem storeIsSeenByTheNextFetch : Obligations.StoreIsSeenByTheNextFetch := by
  rintro s hr hwf hpc hop has stored rfl
  refine ⟨s.afterStoreImm, step_ld_atHL_d8 hr (Nat.lt_succ_of_le hpc) hop has, rfl, frame_setMem_write _ _ s,
    Memory.read_write_self hwf _ _, fun hHL k hk => ?_, fun hHL k hk hlt => ?_⟩
  · have hbytes (n : Nat) : s.afterStoreImm.mem.bytesAt (s.pc + 2) (n + 1)
        = s.mem.read (s.pc + 1) :: s.mem.bytesAt (s.pc + 3) n := by
      rw [State.afterStoreImm, hHL]
      exact Memory.bytesAt_write_self hwf _ _ n
    have hop' : s.afterStoreImm.opcodeAt = s.mem.read (s.pc + 1) := List.head_eq_of_cons_eq (hbytes 0)
    have hcount : s.afterStoreImm.operandsAt = k := by rw [State.operandsAt, hop', hk]; rfl
    have hpc' : s.pc + 2 < memSize := hHL ▸ (readReg .HL s).isLt
    exact ⟨fun hlt => fetchInstr_and_step_of_lt hr hcount (Nat.lt_succ_of_le hlt) (hbytes k),
      fun hge => step_of_operand_ge hr hpc' (hcount ▸ hge)⟩
  · have hbytes : s.afterStoreImm.mem.bytesAt (s.pc + 2) (k + 2)
        = s.mem.read (s.pc + 2) :: s.mem.read (s.pc + 1) :: s.mem.bytesAt (s.pc + 4) k := by
      rw [State.afterStoreImm, hHL]
      exact Memory.bytesAt_write_succ hwf _ _ k
    have hop' : s.afterStoreImm.opcodeAt = s.mem.read (s.pc + 2) := List.head_eq_of_cons_eq hbytes
    have hcount : s.afterStoreImm.operandsAt = k + 1 := by rw [State.operandsAt, hop', ← hk]; rfl
    rw [show s.pc + 3 + k = s.pc + 2 + (k + 1) by omega] at hlt ⊢
    exact fetchInstr_and_step_of_lt hr hcount (Nat.lt_succ_of_le hlt) hbytes

end Sys2Proof.Machine

/-! Decoding and encoding are inverse to each other (rules R60 to R73 of 30_encoding.md): what the rows of the two maps are
encoded as, and what the maps have at the opcode byte of each instruction. -/

namespace Sys2Proof

/-! ### The byte 0xCB and the secondary table (R85) -/

theorem decode_of_decodePrimary {p : Params} {bs rest : List Byte} {i : Instr} (h : decodePrimary p bs = .ok (i, rest)) :
    decode p bs = .ok (resolvePrefix p i, rest) := by
  rw [decode, h]

theorem resolvePrefix_of_ne_prefixCb (p : Params) {i : Instr} (h : ∀ op2, i ≠ .prefixCb op2) : resolvePrefix p i = i := by
  cases i with
  | prefixCb op2 => exact absurd rfl (h op2)
  | _ => rfl

theorem toInstr_ne_prefixCb (q : Prefixed) (op2 : Byte) : q.toInstr ≠ .prefixCb op2 := by
  cases q with
  | nop op => exact Instr.noConfusion
  | bit b r => fin_cases b <;> cases r <;> exact Instr.noConfusion

theorem resolvePrefix_ne_prefixCb (p : Params) (i : Instr) (op2 : Byte) : resolvePrefix p i ≠ .prefixCb op2 := by
  cases i with
  | prefixCb op => exact toInstr_ne_prefixCb _ op2
  | _ => exact Instr.noConfusion

/-! ### From the bytes to the instruction -/

/-- `bs` are the bytes of `i`, a well-formed instruction of the maps that the parameters select. -/
def Instr.HasBytes (p : Params) (i : Instr) (bs : List Byte) : Prop :=
  encode i = bs ∧ i.wf = true ∧ i.inMap p = true

/-- Every instruction of a form satisfies `P` with its operand bytes, the low byte of a word first (R63). -/
def OpcodeForm.All (P : Instr → List Byte → Prop) : OpcodeForm → Prop
  | .op i   => P i []
  | .d8 mk  => ∀ b, P (mk b) [b]
  | .d16 mk => ∀ v, P (mk v) [loByte v, hiByte v]

theorem OpcodeForm.All.imp {P Q : Instr → List Byte → Prop} (h : ∀ i bs, P i bs → Q i bs) {f : OpcodeForm}
    (hf : f.All P) : f.All Q := by
  cases f with
  | op i => exact h i _ hf
  | d8 mk => exact fun b => h _ _ (hf b)
  | d16 mk => exact fun v => h _ _ (hf v)

theorem eq_ofNat_of_toNat_eq {op : Byte} {n : Nat} (h : op.toNat = n) : op = BitVec.ofNat 8 n := by
  rw [← h, BitVec.ofNat_toNat, BitVec.setWidth_eq]

/-- Each entry of the grid of R71: the no-op, or instructions that the maps have exactly where the byte is assigned. -/
theorem primaryMap_cases (op : Byte) :
    primaryMap op = .op (.nop op)
    ∨ (primaryMap op).All fun i operands =>
        encode i = op :: operands ∧ i.wf = true ∧ ∀ p, i.inMap p = p.assignsPrimary op := by
  unfold primaryMap
  split
  pick_goal -1
  · exact .inl rfl
  all_goals
    next h =>
    obtain rfl := eq_ofNat_of_toNat_eq h
    refine .inr ?_
    simp only [OpcodeForm.All]
    intros
    exact ⟨rfl, rfl, fun _ => rfl⟩

/-- Each entry of the list of R116, likewise. -/
theorem secondaryMap_cases (op : Byte) :
    secondaryMap op = .nop op
    ∨ (encode (secondaryMap op).toInstr = [0xCB, op] ∧ (secondaryMap op).toInstr.wf = true
      ∧ ∀ p, (secondaryMap op).toInstr.inMap p = p.assignsSecondary op) := by
  unfold secondaryMap
  split
  pick_goal -1
  · exact .inl rfl
  all_goals
    next h =>
    obtain rfl := eq_ofNat_of_toNat_eq h
    exact .inr ⟨rfl, rfl, fun _ => rfl⟩

/-- An assigned byte has an instruction other than the no-op in the grid. -/
theorem primaryMap_ne_nop {p : Params} {op : Byte} (h : p.assignsPrimary op = true) : primaryMap op ≠ .op (.nop op) := by
  intro hnop
  have hisNop := primaryMap_isNop op
  rw [hnop, OpcodeForm.isNop, beq_self_eq_true, eq_comm, Bool.not_eq_true', Bool.or_eq_false_iff] at hisNop
  obtain ⟨hS, hG⟩ := hisNop
  rw [Params.assignsPrimary, hS, hG] at h
  cases h

theorem secondaryMap_ne_nop {p : Params} {op : Byte} (h : p.assignsSecondary op = true) : secondaryMap op ≠ .nop op := by
  intro hnop
  have hisNop := secondaryMap_isNop op
  rw [hnop, beq_self_eq_true, eq_comm, Bool.not_eq_true', Bool.or_eq_false_iff] at hisNop
  obtain ⟨hS, hG⟩ := hisNop
  rw [Params.assignsSecondary, hS, hG] at h
  cases h

theorem hasBytes_nop {p : Params} {op : Byte} (h : p.assignsPrimary op = false) : (Instr.nop op).HasBytes p [op] := by
  obtain ⟨hS, -⟩ := Bool.or_eq_false_iff.mp h
  exact ⟨rfl, congrArg (! ·) hS, congrArg (! ·) h⟩

theorem hasBytes_nopCb {p : Params} {op : Byte} (h : p.assignsSecondary op = false) :
    (Instr.nopCb op).HasBytes p [0xCB, op] := by
  obtain ⟨hS, -⟩ := Bool.or_eq_false_iff.mp h
  exact ⟨rfl, congrArg (! ·) hS, congrArg (! ·) h⟩

/-- What the opcode byte decodes to has that byte and its operand bytes as its encoding, under all parameters. -/
theorem primaryForm_hasBytes (p : Params) (op : Byte) :
    (primaryForm p op).All fun i operands => i.HasBytes p (op :: operands) := by
  cases h : p.assignsPrimary op with
  | false =>
    rw [primaryForm_of_unassigned h]
    exact hasBytes_nop h
  | true =>
    rw [primaryForm_of_assigned h]
    rcases primaryMap_cases op with hnop | hall
    · exact absurd hnop (primaryMap_ne_nop h)
    · exact hall.imp fun i bs ⟨henc, hwf, hmap⟩ => ⟨henc, hwf, (hmap p).trans h⟩

theorem decodeSecondary_hasBytes (p : Params) (op : Byte) : (decodeSecondary p op).toInstr.HasBytes p [0xCB, op] := by
  cases h : p.assignsSecondary op with
  | false =>
    rw [decodeSecondary_of_unassigned h]
    exact hasBytes_nopCb h
  | true =>
    rw [decodeSecondary_of_assigned h]
    rcases secondaryMap_cases op with hnop | ⟨henc, hwf, hmap⟩
    · exact absurd hnop (secondaryMap_ne_nop h)
    · exact ⟨henc, hwf, (hmap p).trans h⟩

/-- The primary decoder reads the bytes of its answer and leaves the others. -/
theorem hasBytes_of_decodePrimary {p : Params} {bs rest : List Byte} {i : Instr} (h : decodePrimary p bs = .ok (i, rest)) :
    ∃ read, bs = read ++ rest ∧ i.HasBytes p read := by
  cases bs with
  | nil => cases h
  | cons op bs =>
    have hall := primaryForm_hasBytes p op
    rcases decodePrimary_ok h with ⟨hf, rfl⟩ | ⟨mk, b, hf, rfl, rfl⟩ | ⟨mk, lo, hi, hf, rfl, rfl⟩ <;> rw [hf] at hall
    · exact ⟨[op], rfl, hall⟩
    · exact ⟨[op, b], rfl, hall b⟩
    · have hbytes := hall (joinBytes hi lo)
      rw [Machine.loByte_joinBytes, Machine.hiByte_joinBytes] at hbytes
      exact ⟨[op, lo, hi], rfl, hbytes⟩

/-- The lookup in the secondary table keeps the bytes: `prefixCb` has both bytes of the instruction it enters (R85). -/
theorem hasBytes_resolvePrefix {p : Params} {i : Instr} {bs : List Byte} (h : i.HasBytes p bs) :
    (resolvePrefix p i).HasBytes p bs := by
  cases i with
  | prefixCb op2 =>
    obtain ⟨rfl, -, -⟩ := h
    exact decodeSecondary_hasBytes p op2
  | _ => exact h

/-- Settles O17: the primary decoder by `hasBytes_of_decodePrimary`, then `hasBytes_resolvePrefix`. -/
theorem encodeOfDecodeIsTheBytes : Obligations.EncodeOfDecodeIsTheBytes := by
  intro p bs rest i h
  obtain ⟨j, hj, rfl⟩ := decode_ok h
  obtain ⟨read, rfl, hbytes⟩ := hasBytes_of_decodePrimary hj
  obtain ⟨rfl, hwf, hmap⟩ := hasBytes_resolvePrefix hbytes
  exact ⟨rfl, hwf, hmap, resolvePrefix_ne_prefixCb p j⟩

/-- Settles O13: `decodePrimary_exact` on the operand bytes; bytes after them change nothing. -/
theorem decodeIsTotal : Obligations.DecodeIsTotal := by
  refine fun p op => ⟨?_, fun operands rest hlen => ?_⟩
  · rw [operandCount_eq]
    cases primaryForm p op <;> simp [OpcodeForm.count]
  · obtain ⟨j, hj⟩ := decodePrimary_exact p op operands hlen
    have h := decode_of_decodePrimary (decodePrimary_append hj rest)
    obtain ⟨-, hwf, hmap, -⟩ := encodeOfDecodeIsTheBytes _ _ _ _ h
    exact ⟨_, h, hwf, hmap⟩

/-! ### From the instruction to the bytes -/

theorem inMap_of_primary {i : Instr} (ht : i.table = .primary) (hn : ∀ op, i ≠ .nop op) (p : Params) :
    i.inMap p = p.assignsPrimary i.opcode := by
  cases i with
  | nop op => exact absurd rfl (hn op)
  | _ => cases ht <;> rfl

theorem inMap_of_secondary {i : Instr} (ht : i.table = .secondary) (hn : ∀ op, i ≠ .nopCb op) (p : Params) :
    i.inMap p = p.assignsSecondary i.opcode := by
  cases i with
  | nopCb op => exact absurd rfl (hn op)
  | _ => cases ht <;> rfl

/-- The grid of R71 at the opcode byte of each instruction reads the instruction off its operand bytes. -/
theorem read_primaryMap_opcode {i : Instr} (ht : i.table = .primary) (hn : ∀ op, i ≠ .nop op) (rest : List Byte) :
    (primaryMap i.opcode).read i.opcode (i.operands ++ rest) = .ok (i, rest) := by
  cases i with
  | nop op => exact absurd rfl (hn op)
  | ld_BC_d16 v | ld_DE_d16 v | ld_HL_d16 v | ld_SP_d16 v | ld_atA16_SP v =>
    simp [Instr.opcode, Instr.operands, primaryMap, OpcodeForm.read]
  | _ => cases ht <;> rfl

theorem toInstr_secondaryMap_opcode {i : Instr} (ht : i.table = .secondary) (hn : ∀ op, i ≠ .nopCb op) :
    (secondaryMap i.opcode).toInstr = i := by
  cases i with
  | nopCb op => exact absurd rfl (hn op)
  | _ => cases ht <;> rfl

theorem decodePrimary_encode {p : Params} {i : Instr} (h : i.inMap p = true) (ht : i.table = .primary) (rest : List Byte) :
    decodePrimary p (encode i ++ rest) = .ok (i, rest) := by
  rw [encode, ht, List.cons_append, decodePrimary]
  by_cases hn : ∃ op, i = .nop op
  · obtain ⟨op, rfl⟩ := hn
    rw [Instr.inMap, Bool.not_eq_true'] at h
    rw [Instr.opcode, primaryForm_of_unassigned h]
    rfl
  · rw [not_exists] at hn
    rw [inMap_of_primary ht hn] at h
    rw [primaryForm_of_assigned h, read_primaryMap_opcode ht hn]

theorem toInstr_decodeSecondary_opcode {p : Params} {i : Instr} (h : i.inMap p = true) (ht : i.table = .secondary) :
    (decodeSecondary p i.opcode).toInstr = i := by
  by_cases hn : ∃ op, i = .nopCb op
  · obtain ⟨op, rfl⟩ := hn
    rw [Instr.inMap, Bool.not_eq_true'] at h
    rw [Instr.opcode, decodeSecondary_of_unassigned h]
    rfl
  · rw [not_exists] at hn
    rw [inMap_of_secondary ht hn] at h
    rw [decodeSecondary_of_assigned h, toInstr_secondaryMap_opcode ht hn]

theorem resolvePrefix_of_secondary (p : Params) {i : Instr} (ht : i.table = .secondary) : resolvePrefix p i = i :=
  resolvePrefix_of_ne_prefixCb p fun op2 h => by rw [h] at ht; cases ht

theorem decode_encode_of_secondary {p : Params} {i : Instr} (h : i.inMap p = true) (ht : i.table = .secondary)
    (rest : List Byte) : decode p (encode i ++ rest) = .ok (i, rest) := by
  rw [encode, ht]
  exact (decode_cb p i.opcode rest).trans (by rw [toInstr_decodeSecondary_opcode h ht])

/-- Settles O16, by the table of the instruction. -/
theorem decodeOfEncodeIsTheInstruction : Obligations.DecodeOfEncodeIsTheInstruction := by
  refine fun p i h rest => ⟨?_, fun ht => decodePrimary_encode h ht rest, resolvePrefix_of_ne_prefixCb p⟩
  cases ht : i.table with
  | primary => exact decode_of_decodePrimary (decodePrimary_encode h ht rest)
  | secondary => rw [resolvePrefix_of_secondary p ht, decode_encode_of_secondary h ht]

/-! ### Bytes of each tier (R67 to R69, R73) -/

/-- A byte the parameters do not assign is a no-op, whatever follows. -/
theorem decode_of_unassigned {p : Params} {op : Byte} (h : p.assignsPrimary op = false) (bs : List Byte) :
    decode p (op :: bs) = .ok (.nop op, bs) :=
  decode_of_decodePrimary (decodePrimary_of_form (primaryForm_of_unassigned h) bs)

theorem decode_cb_of_unassigned {p : Params} {op : Byte} (h : p.assignsSecondary op = false) (bs : List Byte) :
    decode p (0xCB :: op :: bs) = .ok (.nopCb op, bs) := by
  rw [decode_cb, decodeSecondary_of_unassigned h]; rfl

/-- Only the byte 0xCB enters the secondary table (R85). -/
theorem eq_cb_of_decodePrimary {p : Params} {op op2 : Byte} {bs rest : List Byte}
    (h : decodePrimary p (op :: bs) = .ok (.prefixCb op2, rest)) : op = 0xCB := by
  obtain ⟨read, hread, rfl, -, -⟩ := hasBytes_of_decodePrimary h
  exact List.head_eq_of_cons_eq hread

/-- Under parameters with the same row at an opcode byte other than 0xCB, the decoder gives the same answer. -/
theorem decode_congr {p q : Params} {op : Byte} (hf : primaryForm p op = primaryForm q op) (hop : op ≠ 0xCB)
    (bs : List Byte) : decode p (op :: bs) = decode q (op :: bs) := by
  have hd : decodePrimary p (op :: bs) = decodePrimary q (op :: bs) := by rw [decodePrimary, decodePrimary, hf]
  cases h : decodePrimary q (op :: bs) with
  | error e => rw [decode, decode, hd, h]
  | ok r =>
    obtain ⟨i, rest⟩ := r
    have hne : ∀ op2, i ≠ .prefixCb op2 := by
      rintro op2 rfl
      exact hop (eq_cb_of_decodePrimary h)
    rw [decode_of_decodePrimary (hd.trans h), decode_of_decodePrimary h, resolvePrefix_of_ne_prefixCb p hne,
      resolvePrefix_of_ne_prefixCb q hne]

theorem assignsPrimary_of_tierG {op : Byte} (h : tierGPrimary op = true) (p : Params) :
    p.assignsPrimary op = !p.leftOutPrimary.contains op := by
  rw [Params.assignsPrimary, tierSPrimary_of_tierG h, h, Bool.false_or, Bool.true_and]

theorem assignsSecondary_of_tierG {op : Byte} (h : tierGSecondary op = true) (p : Params) :
    p.assignsSecondary op = !p.leftOutSecondary.contains op := by
  rw [Params.assignsSecondary, tierSSecondary_of_tierG h, h, Bool.false_or, Bool.true_and]

theorem ne_cb_of_tierG {op : Byte} (h : tierGPrimary op = true) : op ≠ 0xCB := by
  rintro rfl
  exact absurd (tierSPrimary_of_tierG h) (by decide)

/-- Settles O15: whether the byte is assigned decides each clause; the default parameters leave out no byte of tier G. -/
theorem unassignedBytesAreNoOps : Obligations.UnassignedBytesAreNoOps := by
  refine fun p op bs => ⟨fun hS hG => ?_, fun hS hG => ?_, fun hG hl => ?_, fun hG hl => ?_, fun hG hl => ?_, fun hG hl => ?_⟩
  · exact decode_of_unassigned (by rw [Params.assignsPrimary, hS, hG]; rfl) bs
  · exact decode_cb_of_unassigned (by rw [Params.assignsSecondary, hS, hG]; rfl) bs
  · exact decode_of_unassigned (by rw [assignsPrimary_of_tierG hG, hl]; rfl) bs
  · exact decode_cb_of_unassigned (by rw [assignsSecondary_of_tierG hG, hl]; rfl) bs
  · refine decode_congr ?_ (ne_cb_of_tierG hG) bs
    rw [primaryForm_of_assigned (by rw [assignsPrimary_of_tierG hG, hl]; rfl),
      primaryForm_of_assigned (assignsPrimary_of_tierG hG defaultParams)]
  · rw [decode_cb, decode_cb, decodeSecondary_of_assigned (by rw [assignsSecondary_of_tierG hG, hl]; rfl),
      decodeSecondary_of_assigned (assignsSecondary_of_tierG hG defaultParams)]

theorem decodePrimary_of_tierS {op : Byte} (h : tierSPrimary op = true) (p : Params) (bs : List Byte) :
    decodePrimary p (op :: bs) = (primaryMap op).read op bs :=
  decodePrimary_of_form (primaryForm_of_assigned (by rw [Params.assignsPrimary, h]; rfl)) bs

/-- Settles O11: bytes of tier S are assigned under all parameters, 0x00 under none. -/
theorem tierSBytesDecode : Obligations.TierSBytesDecode := by
  intro p b0 b1
  have hSp : decodePrimary p [0x31, b0, b1] = .ok (.ld_SP_d16 (joinBytes b1 b0), []) := decodePrimary_of_tierS rfl p _
  have hXor : decodePrimary p [0xAF] = .ok (.xor_A, []) := decodePrimary_of_tierS rfl p _
  have hCb : decodePrimary p [0xCB, b0] = .ok (.prefixCb b0, []) := decodePrimary_of_tierS rfl p _
  have hJr : decodePrimary p [0x20, b0] = .ok (.jr_NZ_d8 b0, []) := decodePrimary_of_tierS rfl p _
  have hBit : decodeSecondary p 0x7C = .bit 7 .H := decodeSecondary_of_assigned rfl
  refine ⟨decode_of_decodePrimary hSp, decode_of_decodePrimary hXor, hCb, decode_of_decodePrimary hJr, ?_,
    decode_of_unassigned rfl []⟩
  rw [decode_cb, hBit]
  rfl

/-- Settles O12: each word is computed. -/
theorem sampleWordsDecode : Obligations.SampleWordsDecode :=
  ⟨rfl, rfl, rfl, rfl, rfl, rfl, rfl, rfl, rfl, rfl, rfl, rfl, rfl, rfl, rfl⟩

/-- Settles O14: the 256 bytes by their two hexadecimal digits. -/
theorem operandCountOfEachOpcode : Obligations.OperandCountOfEachOpcode := by
  apply byte_cases
  decide

end Sys2Proof

/-! One step and runs of steps (rules R80 to R88 of 40_step_nop_prefix.md): operand fetch, the decoded instruction, the no-ops,
`prefixCb`, and the end of every run. -/

namespace Sys2Proof.Machine

/-! ### Operand fetch (R82) -/

theorem Memory.getElem?_bytesAt (m : Memory) (n : Nat) :
    ∀ {addr j}, j < n → (m.bytesAt addr n)[j]? = some (m.read (addr + j)) := by
  induction n with
  | zero => exact fun h => absurd h (Nat.not_lt_zero _)
  | succ n ih =>
    intro addr j h
    cases j with
    | zero => rfl
    | succ j =>
      rw [bytesAt, List.getElem?_cons_succ, ih (Nat.lt_of_succ_lt_succ h), Nat.add_assoc, Nat.add_comm 1 j]

/-- Settles O8: the fetches inside and above memory; the operand bytes are those of `bytesAt`. -/
theorem operandFetchAdvancesThenReads : Obligations.OperandFetchAdvancesThenReads :=
  ⟨fun _ h => fetchOperand_of_lt (Nat.lt_succ_of_le h), fun _ h => fetchOperand_of_ge h, fun k s h =>
    ⟨_, fetchOperands_of_lt k s (Nat.lt_succ_of_le h), Memory.length_bytesAt _ _ _, fun _ => Memory.getElem?_bytesAt _ _⟩⟩

/-! ### Execution of a decoded instruction -/

/-- An instruction is never refused: it completes in the result of its category, or it faults. -/
theorem exec_cases (i : Instr) (s : State) :
    exec i s = .next ((category s.params i).result s) ∨ ∃ c, exec i s = .fault c := by
  by_cases h : ∃ c, (category s.params i).FaultsAs s c
  · exact .inr (h.imp fun _ => exec_fault_iff.mpr)
  · exact .inl (exec_result (not_exists.mp h))

/-- The instruction decoded at `pc` is as long as its opcode byte and the operand bytes that a step fetches (R61). -/
theorem length_of_decode_bytesAt {s : State} {n : Nat} {i : Instr} {rest : List Byte}
    (h : decode s.params (s.mem.bytesAt s.pc n) = .ok (i, rest)) : i.length = s.operandsAt + 1 := by
  obtain ⟨j, hj, rfl⟩ := decode_ok h
  cases n with
  | zero => cases hj
  | succ n => exact (length_resolvePrefix s.params j).trans (length_of_decodePrimary hj)

/-- Settles O18: the bytes that a step fetches decode to the same instruction, up to the lookup in the secondary table. -/
theorem stepRunsTheDecodedInstruction : Obligations.StepRunsTheDecodedInstruction := by
  intro s n i rest hr hi hin
  have hlen := length_of_decode_bytesAt hi
  obtain ⟨-, j, hj, hstep⟩ := fetchInstr_and_step_of_lt hr rfl (by rw [memSize]; omega) rfl
  obtain rfl := eq_resolvePrefix_of_decode hi hj
  rw [hstep, ← exec_resolvePrefix j, params_setPc, hlen]
  rfl

/-- Settles O20: `exec_cases` after the fetch; the frame of a category keeps `run`. -/
theorem runningStepIsNeverRefused : Obligations.RunningStepIsNeverRefused := by
  intro s hr
  rcases step_running hr with ⟨-, h⟩ | ⟨-, -, h⟩ | ⟨-, i, -, h⟩
  · exact .inr ⟨_, h⟩
  · exact .inr ⟨_, h⟩
  · rcases exec_cases i (s.setPc (s.pc + s.operandsAt)) with hx | ⟨c, hx⟩ <;> rw [hx] at h
    · obtain ⟨-, -, hrun, -⟩ := (category s.params i).result_frame (s.setPc (s.pc + s.operandsAt))
      exact .inl ⟨_, h, hrun.trans hr⟩
    · exact .inr ⟨c, h⟩

/-! ### The no-ops and `prefixCb` -/

theorem frame_refl (regs : List (Fin 10)) (stored : List Nat) (s : State) : Frame regs stored s s :=
  ⟨fun _ _ => rfl, fun _ _ => rfl, rfl, rfl⟩

/-- Settles O39: an unassigned byte decodes to a no-op of its length, and a step executes it by
`stepRunsTheDecodedInstruction`. -/
theorem noOpOnlyAdvances : Obligations.NoOpOnlyAdvances := by
  refine fun s => ⟨fun op => ⟨s, rfl, frame_refl [] [] s, rfl⟩, fun op => ⟨s, rfl, frame_refl [] [] s, rfl⟩,
    fun hr hpc hop => ?_, fun hr hpc hcb hop => ?_⟩
  · exact stepRunsTheDecodedInstruction s 1 _ _ hr (decode_of_unassigned hop []) (Nat.succ_le_succ hpc)
  · have hbytes : s.mem.bytesAt s.pc 2 = [0xCB, s.mem.read (s.pc + 1)] := congrArg (· :: [s.mem.read (s.pc + 1)]) hcb
    have hdecode : decode s.params (s.mem.bytesAt s.pc 2) = .ok (.nopCb (s.mem.read (s.pc + 1)), []) := by
      rw [hbytes, decode_cb_of_unassigned hop]
    exact stepRunsTheDecodedInstruction s 2 _ _ hr hdecode (Nat.succ_le_succ hpc)

/-- A prefixed instruction completes, keeps `pc` and writes at most F, there at most bits 7:5 (R115). -/
theorem prefixedCategory_result (q : Prefixed) (s : State) :
    (∀ c, ¬ (prefixedCategory q).FaultsAs s c)
    ∧ Frame RegName.F.bytes [] s ((prefixedCategory q).result s)
    ∧ ((prefixedCategory q).result s).pc = s.pc
    ∧ ∀ j, j < 5 → (readReg .F ((prefixedCategory q).result s)).getLsbD j = (readReg .F s).getLsbD j := by
  cases q with
  | nop op => exact ⟨fun _ => id, frame_refl _ _ s, rfl, fun _ _ => rfl⟩
  | bit b r =>
    refine ⟨fun _ => id, Category.result_frame (.bit b (bitRegName r)) s, rfl, fun j hj => ?_⟩
    rw [getLsbD_readReg_F, getLsbD_readReg_F, prefixedCategory, Category.result, fBit_bitFlags, if_neg (by omega),
      if_neg (by omega), if_neg (by omega)]

/-- Settles O40: the category of `prefixCb` is that of the prefixed instruction. -/
theorem prefixRunsThePrefixedInstruction : Obligations.PrefixRunsThePrefixedInstruction := by
  intro op2 s
  obtain ⟨hnofault, hresult⟩ := prefixedCategory_result (decodeSecondary s.params op2) s
  have hexec : exec (.prefixCb op2) s = .next ((prefixedCategory (decodeSecondary s.params op2)).result s) :=
    exec_result hnofault
  exact ⟨_, hexec, (exec_resolvePrefix (.prefixCb op2) s).trans hexec, hresult⟩

/-! ### Runs -/

theorem pc_lt_memSize_of_step_next {s t : State} (h : step s = .next t) : s.pc < memSize := by
  obtain ⟨-, hlast, -⟩ := step_next h
  omega

/-- A completed step moves `pc` forward (R124): by the length of its instruction, or by a jump's `d + 1`. -/
theorem pc_lt_of_step_next {s t : State} (h : step s = .next t) : s.pc < t.pc := by
  obtain ⟨-, -, i, hi, -⟩ := step_next h
  have hdecode := decode_of_decodePrimary hi
  have hlen := length_of_decode_bytesAt hdecode
  rw [programCounterAccounting s t _ _ _ hdecode h]
  split
  · split <;> omega
  · split <;> omega
  · omega

theorem exists_step_of_run_succ_next {M : Host.Core} {k : Nat} {s t : M.State} (h : M.run (k + 1) s = .next t) :
    ∃ u, M.step s = .next u ∧ M.run k u = .next t := by
  rw [Host.Core.run] at h
  split at h
  · next u hu => exact ⟨u, hu, h⟩
  · cases h
  · cases h

/-- Each step of a run that completes began inside memory and moved `pc` forward. -/
theorem pc_of_run_next (k : Nat) : ∀ {s t : State}, Host.Core.run core k s = .next t →
    s.pc + k ≤ t.pc ∧ (k = 0 ∨ s.pc + k ≤ memSize) := by
  induction k with
  | zero => intro s t h; cases h; exact ⟨Nat.le_refl _, .inl rfl⟩
  | succ k ih =>
    intro s t h
    obtain ⟨u, hu, hrun⟩ := exists_step_of_run_succ_next h
    have hin := pc_lt_memSize_of_step_next hu
    have hfwd := pc_lt_of_step_next hu
    obtain ⟨hpc, hk⟩ := ih hrun
    omega

/-- A run of a running core is never refused (R87). -/
theorem run_running_cases (k : Nat) : ∀ {s : State}, s.run = .running →
    (∃ t, Host.Core.run core k s = .next t) ∨ ∃ c, Host.Core.run core k s = .fault c := by
  induction k with
  | zero => exact fun {s} _ => .inl ⟨s, rfl⟩
  | succ k ih =>
    intro s hr
    rcases runningStepIsNeverRefused s hr with ⟨t, hstep, ht⟩ | ⟨c, hstep⟩
    · rw [run_succ_of_next core hstep]
      exact ih ht
    · exact .inr ⟨c, run_succ_of_fault core hstep⟩

/-- Settles O48: by `pc_of_run_next` a run of 65537 steps does not complete, and by `run_running_cases` it is not refused. -/
theorem everyRunEndsInTheFatalFault : Obligations.EveryRunEndsInTheFatalFault := by
  intro s hr
  have hbound : ∀ (k : Nat) (t : State), Host.Core.run core k s = .next t → k ≤ 65536 ∧ s.pc + k ≤ t.pc := by
    intro k t h
    obtain ⟨hpc, hk⟩ := pc_of_run_next k h
    rw [memSize] at hk
    exact ⟨by omega, hpc⟩
  refine ⟨(run_running_cases 65537 hr).resolve_left ?_, hbound⟩
  rintro ⟨t, h⟩
  obtain ⟨hle, -⟩ := hbound 65537 t h
  exact absurd hle (by decide)

end Sys2Proof.Machine

/-! Register file and `AddrStep` as the loads use them (rules R14, R15, R107 of 41_loads.md). -/

namespace Sys2Proof.Machine

/-! ### Values of registers -/

theorem toNat_zext16 (b : Byte) : (zext16 b).toNat = b.toNat :=
  BitVec.toNat_setWidth_of_le (by decide)

theorem toNat_readReg_of_byte {n : RegName} (h : n.hiIndex = none) (s : State) :
    (readReg n s).toNat = (s.rfByte n.loIndex).toNat := by
  rw [readReg_of_byte h, toNat_zext16]

/-- What any register reads after it was written: an 8-bit one keeps the low byte. -/
theorem readReg_writeReg (n : RegName) (v : Word) (s : State) :
    readReg n (writeReg n v s) = if n.hiIndex = none then v &&& 0xFF else v := by
  split
  · next h => exact readReg_writeReg_byte h v s
  · next h =>
    obtain ⟨i, hi⟩ := Option.ne_none_iff_exists'.mp h
    exact readReg_writeReg_word hi v s

/-- A value that fits in a byte is kept by any register. -/
theorem readReg_writeReg_of_lt (n : RegName) {v : Word} (h : v.toNat < 256) (s : State) :
    readReg n (writeReg n v s) = v := by
  have hmask : v &&& 0xFF = v := by
    rw [← zext16_loByte]
    apply BitVec.eq_of_toNat_eq
    rw [toNat_zext16, loByte_toNat, Nat.mod_eq_of_lt h]
  rw [readReg_writeReg, hmask, ite_self]

theorem toNat_readReg_writeReg_dataByte (n : RegName) (b : Byte) (s : State) :
    (readReg n (writeReg n (dataByte b) s)).toNat = b.toNat := by
  have hb : (dataByte b).toNat = b.toNat := toNat_zext16 b
  rw [readReg_writeReg_of_lt n (hb ▸ b.isLt), hb]

theorem readReg_HL_writeReg_A (v : Word) (s : State) : readReg .HL (writeReg .A v s) = readReg .HL s :=
  readReg_writeReg_of_disjoint (by decide) v s

theorem readReg_A_writeReg_HL (v : Word) (s : State) : readReg .A (writeReg .HL v s) = readReg .A s :=
  readReg_writeReg_of_disjoint (by decide) v s

/-! ### `AddrStep` (R107) -/

theorem addrStep_of_completes {n : RegName} {dir : StepDir} {s : State}
    (h : ¬ stepOverflows dir (readReg n s) ∨ s.params.seOverflow = .wrap) :
    addrStep n dir s = .ok (writeReg n (stepped dir (readReg n s)) s) := by
  rcases addrStep_eq n dir s with ⟨-, heq⟩ | ⟨hover, hfault, -⟩
  · exact heq
  · rcases h with hn | hwrap
    · exact absurd hover hn
    · rw [hfault] at hwrap; cases hwrap

theorem addrStep_of_overflows {n : RegName} {dir : StepDir} {s : State} {v : Word} (hv : readReg n s = v)
    (hover : stepOverflows dir v) (hfault : s.params.seOverflow = .fault) :
    addrStep n dir s = .error (.addrRegOverflow n v) := by
  subst hv
  rcases addrStep_eq n dir s with ⟨hn, -⟩ | ⟨-, -, heq⟩
  · exact absurd ⟨hover, hfault⟩ hn
  · exact heq

theorem stepped_increment_eq_ofNat (v : Word) : stepped .increment v = BitVec.ofNat 16 (v.toNat + 1) := by
  rw [BitVec.ofNat_add, BitVec.ofNat_toNat, BitVec.setWidth_eq]
  rfl

theorem stepped_decrement_eq_ofNat {v : Word} (h : 0 < v.toNat) :
    stepped .decrement v = BitVec.ofNat 16 (v.toNat - 1) := by
  calc stepped .decrement v = BitVec.ofNat 16 v.toNat - BitVec.ofNat 16 1 := by
        rw [BitVec.ofNat_toNat, BitVec.setWidth_eq]; rfl
    _ = BitVec.ofNat 16 (v.toNat - 1) := BitVec.ofNat_sub_ofNat_of_le _ _ (by decide) h

/-- The +1 / -1 of a side effect, modulo 65536. -/
def StepDir.offset : StepDir → Nat
  | .increment => 1
  | .decrement => 65535

theorem toNat_stepped (dir : StepDir) (v : Word) : (stepped dir v).toNat = (v.toNat + dir.offset) % 65536 := by
  cases dir with
  | increment => exact BitVec.toNat_add v 1
  | decrement => rw [stepped, BitVec.toNat_sub, Nat.add_comm]; rfl

/-- Settles O10: a value below 0xFFFF (above 0x0000) does not overflow; at the ends `stepped` is the wrapped value. -/
theorem addressStepFollowsThePolicy : Obligations.AddressStepFollowsThePolicy := by
  refine fun n s => ⟨fun h => ?_, fun hv hp => ?_, fun hv hp => addrStep_of_overflows hv rfl hp,
    fun h => ?_, fun hv hp => ?_, fun hv hp => addrStep_of_overflows hv rfl hp⟩
  · have hne : readReg n s ≠ 0xFFFF := fun e => absurd h (by rw [e]; decide)
    rw [addrStep_of_completes (dir := .increment) (.inl hne), stepped_increment_eq_ofNat]
  · rw [addrStep_of_completes (.inr hp), hv]; rfl
  · have hne : readReg n s ≠ 0x0000 := fun e => absurd h (by rw [e]; decide)
    rw [addrStep_of_completes (dir := .decrement) (.inl hne), stepped_decrement_eq_ofNat h]
  · rw [addrStep_of_completes (.inr hp), hv]; rfl

end Sys2Proof.Machine

/-! The load handlers over all register names (rule R108 of 41_loads.md). -/

namespace Sys2Proof.Machine

/-- The byte a plain store writes, as a number (R102). -/
theorem toNat_read_write_storedByte {s : State} (hwf : s.mem.wf) (a : Nat) (src : RegName) :
    ((s.mem.write a (storedByte src s)).read a).toNat = (readReg src s).toNat % 256 := by
  rw [Memory.read_write_self hwf, storedByte, loByte_toNat]

theorem toNat_read_write_storedByte_of_byte {s : State} (hwf : s.mem.wf) (a : Nat) {src : RegName}
    (h : src.hiIndex = none) : ((s.mem.write a (storedByte src s)).read a).toNat = (readReg src s).toNat := by
  rw [toNat_read_write_storedByte hwf, Nat.mod_eq_of_lt (readReg_lt h s)]

/-- A side-effect load is the plain load of A, then `AddrStep` (R100, R101). -/
theorem loadMemStep_eq (addr : RegName) (dir : StepDir) (s : State) :
    loadMemStep addr dir s
      = addrStep addr dir (writeReg .A (dataByte (s.mem.read (regAddress addr s))) s) :=
  congrArg (· >>= addrStep addr dir) (loadMem_eq .A addr s)

/-- A side-effect store is the plain store of A, then `AddrStep` (R105, R106). -/
theorem storeMemStep_eq (addr : RegName) (dir : StepDir) (s : State) :
    storeMemStep addr dir s
      = addrStep addr dir (s.setMem (s.mem.write (regAddress addr s) (storedByte .A s))) :=
  congrArg (· >>= addrStep addr dir) (storeMem_eq addr .A s)

/-- `AddrStep` of an 8-bit register where it completes: the low byte of the stepped value is kept. -/
theorem addrStep_byte {n : RegName} {dir : StepDir} {s : State} {v : Word} (hn : n.hiIndex = none)
    (hv : readReg n s = v) (h : ¬ stepOverflows dir v ∨ s.params.seOverflow = .wrap) :
    ∃ t, addrStep n dir s = .ok t ∧ Frame n.bytes [] s t ∧ t.pc = s.pc ∧ readReg n t = stepped dir v &&& 0xFF := by
  subst hv
  exact ⟨_, addrStep_of_completes h, frame_writeReg _ _ _, pc_writeReg _ _ _, readReg_writeReg_byte hn _ _⟩

/-- Settles O35: each handler writes one register (`frame_writeReg`) or stores one byte (`frame_setMem_write`), the side-effect
ones before their `AddrStep`. -/
theorem handlersOverAllRegisterNames : Obligations.HandlersOverAllRegisterNames := by
  refine ⟨fun n s => ⟨rfl, fun h => toNat_readReg_of_byte h s⟩, fun dst v s => ?loadImm16, fun dst b s => ?loadImm8,
    fun dst src s => ?loadReg, fun dst addr s => ?loadMem, fun addr b s hwf => ?storeImm8, fun addr src s hwf => ?storeMem,
    fun addr dir s => ?loadMemStep, fun addr dir s hwf => ?storeMemStep, fun n s hn => ?addrStep⟩
  case loadImm16 => exact ⟨_, rfl, frame_writeReg _ _ _, pc_writeReg _ _ _, readReg_writeReg _ _ _⟩
  case loadImm8 => exact ⟨_, rfl, frame_writeReg _ _ _, pc_writeReg _ _ _, toNat_readReg_writeReg_dataByte _ _ _⟩
  case loadReg =>
    refine ⟨_, rfl, frame_writeReg _ _ _, pc_writeReg _ _ _, readReg_writeReg _ _ _, fun hsrc => ?_⟩
    rw [readReg_writeReg_of_lt _ (readReg_lt hsrc s), toNat_readReg_of_byte hsrc]
  case loadMem =>
    exact ⟨_, loadMem_eq _ _ _, frame_writeReg _ _ _, pc_writeReg _ _ _, toNat_readReg_writeReg_dataByte _ _ _⟩
  case storeImm8 => exact ⟨_, storeImm8_eq _ _ _, frame_setMem_write _ _ _, rfl, Memory.read_write_self hwf _ _⟩
  case storeMem => exact ⟨_, storeMem_eq _ _ _, frame_setMem_write _ _ _, rfl, toNat_read_write_storedByte hwf _ _⟩
  case loadMemStep =>
    exact ⟨_, loadMemStep_eq _ _ _, frame_writeReg _ _ _, pc_writeReg _ _ _, toNat_readReg_writeReg_dataByte _ _ _⟩
  case storeMemStep =>
    exact ⟨_, storeMemStep_eq _ _ _, frame_setMem_write _ _ _, rfl, toNat_read_write_storedByte_of_byte hwf _ rfl⟩
  case addrStep =>
    exact ⟨fun hv => addrStep_byte hn hv (.inl (by rw [stepOverflows]; decide)), fun hv hp => addrStep_byte hn hv (.inr hp),
      fun hv hp => addrStep_of_overflows hv rfl hp⟩

end Sys2Proof.Machine

/-! The load instructions (rules R90 to R107 of 41_loads.md): `exec` of each group is its handler with the group's registers. -/

namespace Sys2Proof.Machine

/-! ### Loads of a register -/

theorem exec_imm16Loads : ∀ r ∈ imm16Loads, ∀ (v : Word) (s : State), exec (r.1 v) s = .next (writeReg r.2 v s) := by
  intro r hr v s
  fin_cases hr <;> rfl

/-- Settles O23: the destination of each form is a pair or SP, which keeps the whole word. -/
theorem loadImmediate16 : Obligations.LoadImmediate16 := by
  intro r hr v s
  have hword : ∀ r ∈ [RegName.BC, .DE, .HL, .SP], r.hiIndex ≠ none := by decide
  have hdst : r.2.hiIndex ≠ none := hword r.2 (List.mem_map_of_mem (f := Prod.snd) hr)
  exact ⟨_, exec_imm16Loads r hr v s, by rw [readReg_writeReg, if_neg hdst], frame_writeReg _ _ _, pc_writeReg _ _ _⟩

theorem exec_imm8Loads : ∀ r ∈ imm8Loads, ∀ (b : Byte) (s : State),
    exec (r.1 b) s = .next (writeReg r.2 (dataByte b) s) := by
  intro r hr b s
  fin_cases hr <;> rfl

/-- Settles O24: a byte as data is kept by any register. -/
theorem loadImmediate8 : Obligations.LoadImmediate8 := fun r hr b s =>
  ⟨_, exec_imm8Loads r hr b s, toNat_readReg_writeReg_dataByte _ _ _, frame_writeReg _ _ _, pc_writeReg _ _ _⟩

theorem exec_regLoads : ∀ r ∈ regLoads, ∀ s : State, exec r.1 s = .next (writeReg r.2.1 (readReg r.2.2 s) s) := by
  intro r hr s
  fin_cases hr <;> rfl

theorem source_of_regLoads : ∀ r ∈ regLoads, r.2.2.hiIndex = none := by decide

/-- Settles O25: the source of each form is an 8-bit register, whose value any register keeps. -/
theorem loadRegisterFromRegister : Obligations.LoadRegisterFromRegister := fun r hr s =>
  ⟨_, exec_regLoads r hr s, readReg_writeReg_of_lt _ (readReg_lt (source_of_regLoads r hr) s) s, frame_writeReg _ _ _,
    pc_writeReg _ _ _⟩

/-- Settles O26: SP keeps the whole word. -/
theorem loadSpFromHl : Obligations.LoadSpFromHl := fun _ =>
  ⟨_, rfl, readReg_writeReg .SP _ _, frame_writeReg _ _ _, pc_writeReg _ _ _⟩

theorem exec_memLoads : ∀ r ∈ memLoads, ∀ s : State,
    exec r.1 s = .next (writeReg r.2.1 (dataByte (s.mem.read (readReg r.2.2 s).toNat)) s) := by
  intro r hr s
  have hhandler : exec r.1 s = finish (loadMem r.2.1 r.2.2 s) := by fin_cases hr <;> rfl
  rw [hhandler, loadMem_eq, finish_ok, regAddress]

/-- Settles O30: the byte read, as data, is kept by any register. -/
theorem loadFromMemory : Obligations.LoadFromMemory := fun r hr s =>
  ⟨_, exec_memLoads r hr s, toNat_readReg_writeReg_dataByte _ _ _, frame_writeReg _ _ _, pc_writeReg _ _ _⟩

/-! ### Stores -/

theorem exec_ld_atHL_d8 (b : Byte) (s : State) :
    exec (.ld_atHL_d8 b) s = .next (s.setMem (s.mem.write (readReg .HL s).toNat b)) :=
  congrArg finish (storeImm8_eq .HL b s)

/-- Settles O27: the store is read back. -/
theorem storeImmediateAtHl : Obligations.StoreImmediateAtHl := fun b s hwf =>
  ⟨_, exec_ld_atHL_d8 b s, Memory.read_write_self hwf _ b, frame_setMem_write _ _ s, rfl⟩

theorem exec_memStores : ∀ r ∈ memStores, ∀ s : State,
    exec r.1 s = .next (s.setMem (s.mem.write (readReg r.2.1 s).toNat (storedByte r.2.2 s))) := by
  intro r hr s
  have hhandler : exec r.1 s = finish (storeMem r.2.1 r.2.2 s) := by fin_cases hr <;> rfl
  rw [hhandler, storeMem_eq, finish_ok, regAddress]

/-- Settles O31: the stored byte is the low byte of the source. -/
theorem storeToMemory : Obligations.StoreToMemory := fun r hr s hwf =>
  ⟨_, exec_memStores r hr s, toNat_read_write_storedByte hwf _ _, frame_setMem_write _ _ s, rfl⟩

/-- Settles O28: the second store, at the next address, leaves the first one alone. -/
theorem storeSpAbsolute : Obligations.StoreSpAbsolute := by
  intro a16 s hwf htop
  have hexec : exec (.ld_atA16_SP a16) s = .next ((Category.storeSp a16).result s) :=
    exec_result fun _ hf => htop hf.1
  refine ⟨_, hexec, ?_, ?_, Category.result_frame (.storeSp a16) s, rfl⟩
  · rw [Category.result, mem_setMem, absAddress, Memory.read_write_of_ne _ _ (Nat.ne_of_lt (Nat.lt_succ_self _)),
      Memory.read_write_self hwf, loByte_toNat]
  · rw [Category.result, mem_setMem, absAddress, Memory.read_write_self (Memory.wf_write hwf a16.isLt _), hiByte_toNat]

/-- Settles O29: the second address is 0x10000, above memory. -/
theorem storeSpAtTopFaults : Obligations.StoreSpAtTopFaults := fun s => congrArg finish (storeSp_top s)

/-! ### The side-effect forms (R100, R101, R105, R106) -/

/-- `LD A,(HL+)` and `LD A,(HL-)` where they complete: writing A leaves HL alone, and stepping HL leaves A alone. -/
theorem loadMemStep_HL_completes {dir : StepDir} {s : State}
    (h : ¬ stepOverflows dir (readReg .HL s) ∨ s.params.seOverflow = .wrap) :
    ∃ t, finish (loadMemStep .HL dir s) = .next t
      ∧ (readReg .A t).toNat = (s.mem.read (readReg .HL s).toNat).toNat
      ∧ (readReg .HL t).toNat = ((readReg .HL s).toNat + dir.offset) % 65536
      ∧ Frame (RegName.A.bytes ++ RegName.HL.bytes) [] s t ∧ t.pc = s.pc := by
  have hHL := readReg_HL_writeReg_A (dataByte (s.mem.read (regAddress .HL s))) s
  have hstep := addrStep_of_completes (n := .HL) (dir := dir)
    (s := writeReg .A (dataByte (s.mem.read (regAddress .HL s))) s) (by rwa [hHL, params_writeReg])
  refine ⟨_, congrArg finish ((loadMemStep_eq .HL dir s).trans hstep), ?_, ?_,
    Category.result_frame (.loadMemStep .HL dir) s, rfl⟩
  · rw [readReg_A_writeReg_HL, toNat_readReg_writeReg_dataByte, regAddress]
  · rw [readReg_writeReg_word rfl, hHL, toNat_stepped]

/-- `LD (HL+),A` and `LD (HL-),A` where they complete: the store leaves HL alone. -/
theorem storeMemStep_HL_completes {dir : StepDir} {s : State} (hwf : s.mem.wf)
    (h : ¬ stepOverflows dir (readReg .HL s) ∨ s.params.seOverflow = .wrap) :
    ∃ t, finish (storeMemStep .HL dir s) = .next t
      ∧ (t.mem.read (readReg .HL s).toNat).toNat = (readReg .A s).toNat
      ∧ (readReg .HL t).toNat = ((readReg .HL s).toNat + dir.offset) % 65536
      ∧ Frame RegName.HL.bytes [(readReg .HL s).toNat] s t ∧ t.pc = s.pc := by
  have hHL := readReg_setMem .HL s (s.mem.write (regAddress .HL s) (storedByte .A s))
  have hstep := addrStep_of_completes (n := .HL) (dir := dir)
    (s := s.setMem (s.mem.write (regAddress .HL s) (storedByte .A s))) (by rwa [hHL, params_setMem])
  refine ⟨_, congrArg finish ((storeMemStep_eq .HL dir s).trans hstep), ?_, ?_,
    Category.result_frame (.storeMemStep .HL dir) s, rfl⟩
  · rw [mem_writeReg, mem_setMem, regAddress, toNat_read_write_storedByte_of_byte hwf _ rfl]
  · rw [readReg_writeReg_word rfl, hHL, toNat_stepped]

/-- Settles O32: both directions are `loadMemStep` of HL. -/
theorem loadWithSideEffect : Obligations.LoadWithSideEffect :=
  ⟨fun _ h => loadMemStep_HL_completes (dir := .increment) h, fun _ h => loadMemStep_HL_completes (dir := .decrement) h⟩

/-- Settles O33: both directions are `storeMemStep` of HL. -/
theorem storeWithSideEffect : Obligations.StoreWithSideEffect :=
  ⟨fun _ hwf h => storeMemStep_HL_completes (dir := .increment) hwf h,
    fun _ hwf h => storeMemStep_HL_completes (dir := .decrement) hwf h⟩

/-- Both side-effect handlers fault where HL overflows under `SE_OVERFLOW = Fault`: their access to A leaves HL alone. -/
theorem sideEffect_HL_faults {dir : StepDir} {s : State} {v : Word} (hv : readReg .HL s = v) (hover : stepOverflows dir v)
    (hfault : s.params.seOverflow = .fault) :
    finish (loadMemStep .HL dir s) = .fault (.addrRegOverflow .HL v)
      ∧ finish (storeMemStep .HL dir s) = .fault (.addrRegOverflow .HL v) := by
  constructor
  · exact congrArg finish ((loadMemStep_eq .HL dir s).trans
      (addrStep_of_overflows ((readReg_HL_writeReg_A _ s).trans hv) hover (by rwa [params_writeReg])))
  · exact congrArg finish ((storeMemStep_eq .HL dir s).trans
      (addrStep_of_overflows ((readReg_setMem .HL s _).trans hv) hover hfault))

/-- Settles O34: 0xFFFF overflows under +1, 0x0000 under -1. -/
theorem sideEffectOverflowFaults : Obligations.SideEffectOverflowFaults := fun _ hfault =>
  ⟨fun hv => sideEffect_HL_faults (dir := .increment) hv rfl hfault,
    fun hv => sideEffect_HL_faults (dir := .decrement) hv rfl hfault⟩

/-! ### A whole step at `31 lo hi` -/

/-- Settles O41: the three bytes decode to `LD SP,d16` under every parameter, and a step executes it by
`stepRunsTheDecodedInstruction`. -/
theorem stepOfLoadSpImmediate : Obligations.StepOfLoadSpImmediate := by
  intro s hr hpc hop
  obtain ⟨hdecode, -⟩ := tierSBytesDecode s.params (s.mem.read (s.pc + 1)) (s.mem.read (s.pc + 2))
  have hbytes : s.mem.bytesAt s.pc 3 = [0x31, s.mem.read (s.pc + 1), s.mem.read (s.pc + 2)] :=
    congrArg (· :: [s.mem.read (s.pc + 1), s.mem.read (s.pc + 2)]) hop
  rw [← hbytes] at hdecode
  have hstep := stepRunsTheDecodedInstruction s 3 _ _ hr hdecode (Nat.succ_le_succ hpc)
  refine ⟨_, hstep, ?_, rfl, frame_writeReg .SP _ s⟩
  rw [readReg_setPc, readReg_writeReg_word rfl, joinBytes_toNat]

end Sys2Proof.Machine

/-! `XOR r` (rules R110, R111 of 42_xor.md): the accumulator and the flags it leaves, as one handler over the source register. -/

namespace Sys2Proof.Machine

/-! ### What the flags of `XOR r` leave in registers -/

theorem readReg_F_xorFlags (res : Byte) (s : State) :
    readReg .F (xorFlags res s) = if res = 0x00 then 0x80 else 0x00 := by
  rw [readReg_of_byte rfl, rfByte_xorFlags, if_pos rfl]
  split <;> rfl

theorem readReg_xorFlags_of_ne {n : RegName} (h : RegName.F.loIndex ∉ n.bytes) (res : Byte) (s : State) :
    readReg n (xorFlags res s) = readReg n s :=
  readReg_congr fun i hi => by rw [rfByte_xorFlags, if_neg (ne_of_mem_of_not_mem hi h)]

/-! ### The result as a word and as a byte -/

/-- The exclusive or of two 8-bit registers fits in a byte. -/
theorem xor_readReg_lt {m n : RegName} (hm : m.hiIndex = none) (hn : n.hiIndex = none) (s : State) :
    (readReg m s ^^^ readReg n s).toNat < 256 := by
  rw [BitVec.toNat_xor]
  exact Nat.xor_lt_two_pow (n := 8) (readReg_lt hm s) (readReg_lt hn s)

/-- Of a value that fits in a byte, the low byte tells whether it is zero. -/
theorem loByte_eq_zero_iff {v : Word} (h : v.toNat < 256) : loByte v = 0x00 ↔ v = 0x0000 := by
  rw [← BitVec.toNat_inj, ← BitVec.toNat_inj, loByte_toNat, Nat.mod_eq_of_lt h]
  rfl

/-- R110 for any 8-bit source: Z is set exactly when A equals the source. -/
theorem xorAccumulator_spec {r : RegName} (h : r.hiIndex = none) (s : State) :
    ∃ t, xorAccumulator r s = .ok t
      ∧ readReg .A t = readReg .A s ^^^ readReg r s
      ∧ readReg .F t = (if readReg .A s = readReg r s then 0x80 else 0x00)
      ∧ Frame RegName.AF.bytes [] s t ∧ t.pc = s.pc := by
  have hlt : (readReg .A s ^^^ readReg r s).toNat < 256 := xor_readReg_lt rfl h s
  have hzero : loByte (readReg .A s ^^^ readReg r s) = 0x00 ↔ readReg .A s = readReg r s :=
    (loByte_eq_zero_iff hlt).trans BitVec.xor_eq_zero_iff
  refine ⟨_, rfl, ?_, ?_, Category.result_frame (.xor r) s, rfl⟩
  · rw [readReg_xorFlags_of_ne (by decide), readReg_writeReg_of_lt .A hlt]
  · simp only [readReg_F_xorFlags, hzero]

/-! ### The seven forms -/

theorem exec_xors : ∀ r ∈ xors, ∀ s : State, exec r.1 s = finish (xorAccumulator r.2 s) := by
  intro r hr s
  fin_cases hr <;> rfl

theorem source_of_xors : ∀ r ∈ xors, r.2.hiIndex = none := by decide

/-- Settles O36: the source of each form is an 8-bit register, so `xorAccumulator_spec` says what its handler does. -/
theorem xorResult : Obligations.XorResult := by
  intro r hr s
  obtain ⟨t, hhandler, hresult⟩ := xorAccumulator_spec (source_of_xors r hr) s
  exact ⟨t, by rw [exec_xors r hr, hhandler, finish_ok], hresult⟩

/-! ### A whole step at `AF` -/

/-- Settles O42: the byte decodes to `XOR A` under every parameter, a step executes it by `stepRunsTheDecodedInstruction`, and A
equals itself. -/
theorem stepOfXorA : Obligations.StepOfXorA := by
  intro s hr hpc hop
  obtain ⟨-, hdecode, -⟩ := tierSBytesDecode s.params 0x00 0x00
  have hbytes : s.mem.bytesAt s.pc 1 = [0xAF] := congrArg (· :: []) hop
  rw [← hbytes] at hdecode
  have hstep : step s = outerAdvance (exec .xor_A s) :=
    stepRunsTheDecodedInstruction s 1 _ _ hr hdecode (Nat.succ_le_succ hpc)
  obtain ⟨t, hexec, hA, hF, hframe, htpc⟩ := xorResult (.xor_A, .A) (by decide) s
  rw [hexec, outerAdvance_next] at hstep
  refine ⟨_, hstep, ?_, ?_, congrArg (· + 1) htpc, hframe⟩
  · rw [readReg_setPc, hA, BitVec.xor_self]; rfl
  · rw [readReg_setPc, hF, if_pos rfl]

end Sys2Proof.Machine

/-! `BIT b,r` (rules R115, R116 of 43_bit.md): the flags that the tested bit leaves, as one handler over bit and register. -/

namespace Sys2Proof.Machine

/-! ### What the flags of `BIT b,r` are -/

theorem frame_bitFlags (tested : Bool) (s : State) : Frame RegName.F.bytes [] s (bitFlags tested s) :=
  ⟨fun _ h => rfByte_bitFlags_of_ne tested s (List.ne_of_not_mem_cons h), fun _ _ => rfl, rfl, rfl⟩

theorem getFlag_Z_bitFlags (tested : Bool) (s : State) : getFlag .Z (bitFlags tested s) = !tested :=
  fBit_bitFlags tested s 7

theorem getFlag_N_bitFlags (tested : Bool) (s : State) : getFlag .N (bitFlags tested s) = false :=
  fBit_bitFlags tested s 6

theorem getFlag_H_bitFlags (tested : Bool) (s : State) : getFlag .H (bitFlags tested s) = true :=
  fBit_bitFlags tested s 5

/-- The carry flag and F bits 3:0 are kept. -/
theorem getLsbD_readReg_F_bitFlags_of_lt {j : Nat} (hj : j < 5) (tested : Bool) (s : State) :
    (readReg .F (bitFlags tested s)).getLsbD j = (readReg .F s).getLsbD j := by
  rw [getLsbD_readReg_F, fBit_bitFlags, if_neg (by omega), if_neg (by omega), if_neg (by omega), getLsbD_readReg_F]

/-- The F byte of R115, bit by bit: the mask 0x1F keeps bits 4:0, 0x20 is H, 0x80 is Z, and above bit 7 both sides are 0. -/
theorem readReg_F_bitFlags (tested : Bool) (s : State) :
    readReg .F (bitFlags tested s) = (readReg .F s &&& 0x1F) ||| 0x20 ||| (if tested = false then 0x80 else 0x00) := by
  refine BitVec.eq_of_getLsbD_eq fun j hj => ?_
  simp only [BitVec.getLsbD_or, BitVec.getLsbD_and, getLsbD_readReg_F, fBit_bitFlags]
  interval_cases j <;> cases tested <;> simp

/-! ### The 56 forms -/

theorem exec_bitTests : ∀ r ∈ bitTests, ∀ s : State,
    exec r.1 s = .next (bitFlags ((readReg r.2.2 s).getLsbD r.2.1) s) := by
  intro r hr s
  fin_cases hr <;> rfl

/-- Settles O37: each form leaves `bitFlags` of the bit it tests. -/
theorem bitTestResult : Obligations.BitTestResult := fun r hr s =>
  ⟨_, exec_bitTests r hr s, readReg_F_bitFlags _ s, frame_bitFlags _ s, pc_bitFlags _ s⟩

/-! ### A whole step at `CB 7C` -/

/-- Settles O43: the two bytes decode to `BIT 7,H` under every parameter, and a step executes it by
`stepRunsTheDecodedInstruction`. -/
theorem stepOfBit7H : Obligations.StepOfBit7H := by
  intro s hr hpc hop0 hop1
  obtain ⟨-, -, -, -, hdecode, -⟩ := tierSBytesDecode s.params 0x00 0x00
  have hbytes : s.mem.bytesAt s.pc 2 = [0xCB, 0x7C] := by
    simp only [Memory.bytesAt, hop0, hop1]
  rw [← hbytes] at hdecode
  have hstep : step s = outerAdvance (exec .bit_7_H (s.setPc (s.pc + 1))) :=
    stepRunsTheDecodedInstruction s 2 _ _ hr hdecode (Nat.succ_le_succ hpc)
  rw [exec_bitTests (.bit_7_H, 7, .H) (by decide), outerAdvance_next, readReg_setPc] at hstep
  exact ⟨_, hstep, getFlag_Z_bitFlags _ s, getFlag_N_bitFlags _ s, getFlag_H_bitFlags _ s,
    fun j hj => getLsbD_readReg_F_bitFlags_of_lt hj _ s, rfl, frame_bitFlags _ s⟩

end Sys2Proof.Machine

/-! `JR NZ` and `JR NC` (rules R120 to R124 of 44_jr.md): the relative jump as one handler over flag and distance, a whole step at
either opcode byte, and how far a completed step moves `pc`. -/

namespace Sys2Proof.Machine

/-! ### The handler (R122) -/

/-- The jump category raises no fault, so its handler completes in its result. -/
theorem jumpIfClear_eq (x : FlagName) (d : Byte) (s : State) : jumpIfClear x d s = .ok ((Category.jump x d).result s) := by
  rcases (Category.jump x d).run_cases s with ⟨hrun, -⟩ | ⟨_, -, hfault⟩
  · exact hrun
  · exact hfault.elim

theorem frame_result_jump (x : FlagName) (d : Byte) (s : State) : Frame [] [] s ((Category.jump x d).result s) :=
  Category.result_frame (.jump x d) s

/-- On integers, as R123 asks: from `pc ≥ 1` on, the subtraction of `jumpTarget` is exact. -/
theorem jumpIfClear_spec (x : FlagName) (d : Byte) {s : State} (hpc : 1 ≤ s.pc) : ∃ t, jumpIfClear x d s = .ok t
    ∧ (t.pc : Int) = (if getFlag x s = false then (s.pc : Int) + d.toNat - 1 else s.pc) ∧ Frame [] [] s t := by
  refine ⟨_, jumpIfClear_eq x d s, ?_, frame_result_jump x d s⟩
  rw [Category.pc_result_jump, jumpTarget]
  split <;> omega

/-- Settles O38: the two instructions are `jumpIfClear` on Z and on C, so `jumpIfClear_spec` says what each does. -/
theorem relativeJumpOnClearFlag : Obligations.RelativeJumpOnClearFlag := by
  intro d s hpc
  obtain ⟨tz, hz, hzResult⟩ := jumpIfClear_spec .Z d hpc
  obtain ⟨tc, hc, hcResult⟩ := jumpIfClear_spec .C d hpc
  exact ⟨fun x => jumpIfClear_spec x d hpc, ⟨tz, congrArg finish hz, hzResult⟩, ⟨tc, congrArg finish hc, hcResult⟩⟩

/-! ### A whole step at a jump -/

theorem operandsAt_of_d8 {s : State} {mk : Byte → Instr} (hform : primaryForm s.params s.opcodeAt = .d8 mk) :
    s.operandsAt = 1 := by
  rw [State.operandsAt, operandCount_eq, hform]
  rfl

/-- A step at an opcode byte whose instructions run `jumpIfClear x`, with the distance byte inside memory. -/
theorem step_of_jump {s : State} {x : FlagName} {mk : Byte → Instr} (hr : s.run = .running) (hpc : s.pc + 1 < memSize)
    (hform : primaryForm s.params s.opcodeAt = .d8 mk) (hexec : ∀ d u, exec (mk d) u = finish (jumpIfClear x d u)) :
    ∃ t, step s = .next t
      ∧ t.pc = (if getFlag x s = false then s.pc + (s.mem.read (s.pc + 1)).toNat + 1 else s.pc + 2)
      ∧ Frame [] [] s t := by
  obtain ⟨-, i, hi, hstep⟩ := fetchInstr_and_step_of_lt hr (operandsAt_of_d8 hform) hpc rfl
  cases (decodePrimary_of_form hform [s.mem.read (s.pc + 1)]).symm.trans hi
  rw [hexec, jumpIfClear_eq, finish_ok, outerAdvance_next] at hstep
  exact ⟨_, hstep, pc_jump_add_one x _ s, frame_result_jump x _ (s.setPc (s.pc + 1))⟩

/-- Settles O44: 0x20 is of tier S, so it is `JR NZ` under every parameter; `step_of_jump` inside memory, and from 0xFFFF the
distance byte would be the one at 0x10000. -/
theorem stepOfJumpNz : Obligations.StepOfJumpNz := by
  intro s hr hop
  have hform : primaryForm s.params s.opcodeAt = .d8 .jr_NZ_d8 := by
    rw [State.opcodeAt, hop]
    exact primaryForm_of_assigned rfl
  refine ⟨fun hpc => step_of_jump hr (Nat.lt_succ_of_le hpc) hform fun _ _ => rfl, fun hpc => ?_⟩
  exact step_of_operand_ge hr (by rw [hpc]; decide) (by rw [operandsAt_of_d8 hform, hpc]; decide)

/-- Settles O51: the invariant has the carry flag clear, so `step_of_jump` takes its first branch. -/
theorem jumpNcIsAlwaysTakenInRuns : Obligations.JumpNcIsAlwaysTakenInRuns := by
  intro s hinv hpc hop hassigned
  have hform : primaryForm s.params s.opcodeAt = .d8 .jr_NC_d8 := by
    rw [State.opcodeAt, hop]
    exact primaryForm_of_assigned hassigned
  obtain ⟨t, hstep, htpc, hframe⟩ := step_of_jump (x := .C) hinv.isRunning (Nat.lt_succ_of_le hpc) hform fun _ _ => rfl
  exact ⟨t, hstep, htpc.trans (if_pos hinv.carryClear), hframe⟩

/-! ### How far a completed step moves `pc` (R23, R124) -/

/-- The last byte of the instruction is at most at 0xFFFF; a jump adds at most 254 to it (`pc_result_le`), the outer advance 1. -/
theorem pc_le_of_step_next {s t : State} (h : step s = .next t) : t.pc ≤ 0x100FE := by
  obtain ⟨-, hlast, i, -, -, rfl⟩ := step_next h
  have hle := (category s.params i).pc_result_le (s.setPc (s.pc + s.operandsAt))
  rw [pc_setPc] at hle ⊢
  rw [memSize] at hlast
  omega

/-- Settles O47: `pc_lt_of_step_next` below, `pc_le_of_step_next` above. -/
theorem programCounterOnlyMovesForward : Obligations.ProgramCounterOnlyMovesForward := fun _ _ h =>
  ⟨pc_lt_of_step_next h, pc_le_of_step_next h⟩

end Sys2Proof.Machine

/-! The fatal fault (rules R131, R132, R135 of 60_exceptions.md): the instructions and states in which a step faults, and the
faulted core. -/

namespace Sys2Proof.Machine

/-- Settles O21: marking a core faulted sets `run`, which `step` looks at first. -/
theorem faultedCoreTakesNoStep : Obligations.FaultedCoreTakesNoStep := fun _ _ => step_faulted rfl

/-! ### The instruction at `pc` -/

/-- All bytes of the instruction `i` stand at `pc`, inside memory, and the maps that the parameters select have it. -/
structure State.HasInstr (s : State) (i : Instr) : Prop where
  inside : s.pc + i.length ≤ 0x10000
  bytes  : encode i = s.mem.bytesAt s.pc i.length
  inMap  : i.inMap s.params = true

/-- The instruction that a step decodes stands at `pc`. -/
theorem hasInstr_of_decodePrimary {s : State} {i : Instr} (hlt : s.pc + s.operandsAt < memSize)
    (h : decodePrimary s.params (s.mem.bytesAt s.pc (s.operandsAt + 1)) = .ok (i, [])) : s.HasInstr i := by
  have hlen : i.length = s.operandsAt + 1 := length_of_decodePrimary h
  obtain ⟨read, hread, henc, -, hmap⟩ := hasBytes_of_decodePrimary h
  rw [List.append_nil] at hread
  exact ⟨hlen ▸ hlt, by rw [henc, hlen, hread], hmap⟩

theorem step_of_hasInstr {s : State} {i : Instr} (hr : s.run = .running) (h : s.HasInstr i) :
    step s = outerAdvance (exec i (s.setPc (s.pc + i.length - 1))) := by
  obtain ⟨hdecode, -⟩ := decodeOfEncodeIsTheInstruction s.params i h.inMap []
  rw [List.append_nil, h.bytes] at hdecode
  have hlen := length_resolvePrefix s.params i
  have hstep := stepRunsTheDecodedInstruction s _ _ _ hr hdecode (hlen ▸ h.inside)
  rw [hlen] at hstep
  exact hstep.trans (congrArg outerAdvance (exec_resolvePrefix i (s.setPc (s.pc + i.length - 1))))

/-- A one-byte instruction stands at `pc` exactly where its opcode byte does and the parameters assign that byte. -/
theorem hasInstr_iff_of_one_byte {s : State} {i : Instr} (henc : encode i = [i.opcode]) (hlen : i.length = 1)
    (hmap : i.inMap s.params = s.params.assignsPrimary i.opcode) :
    s.HasInstr i ↔ s.pc ≤ 0xFFFF ∧ s.opcodeAt = i.opcode ∧ s.params.assignsPrimary s.opcodeAt = true := by
  constructor
  · rintro ⟨hin, hbytes, hm⟩
    rw [henc, hlen] at hbytes
    have hop : s.opcodeAt = i.opcode := (List.head_eq_of_cons_eq hbytes).symm
    exact ⟨by omega, hop, by rw [hop, ← hmap, hm]⟩
  · rintro ⟨hpc, hop, has⟩
    exact ⟨by omega, by rw [henc, hlen, ← hop]; rfl, by rw [hmap, ← hop, has]⟩

/-- `LD (0xFFFF),SP` at `pc`, byte by byte. -/
theorem hasInstr_ld_atA16_SP_top_iff {s : State} :
    s.HasInstr (.ld_atA16_SP 0xFFFF) ↔ s.pc + 2 ≤ 0xFFFF ∧ s.opcodeAt = 0x08 ∧ s.params.assignsPrimary 0x08 = true
      ∧ s.mem.read (s.pc + 1) = 0xFF ∧ s.mem.read (s.pc + 2) = 0xFF := by
  constructor
  · rintro ⟨hin, hbytes, hmap⟩
    obtain ⟨hop, htail⟩ := List.cons.inj hbytes
    obtain ⟨hlo, htail⟩ := List.cons.inj htail
    exact ⟨Nat.le_of_succ_le_succ hin, hop.symm, hmap, hlo.symm, (List.head_eq_of_cons_eq htail).symm⟩
  · rintro ⟨hpc, hop, has, hlo, hhi⟩
    have hbytes : s.mem.bytesAt s.pc 3 = [0x08, 0xFF, 0xFF] :=
      congrArg₂ List.cons hop (congrArg₂ List.cons hlo (congrArg (· :: []) hhi))
    exact ⟨Nat.succ_le_succ hpc, hbytes.symm, has⟩

/-! ### The faults of `exec` -/

/-- Every way in which an instruction faults: R96 with a16 = 0xFFFF, and the side-effect forms at either end of HL (R107). -/
theorem exec_fault_cases {i : Instr} {s : State} {c : Fault} (h : exec i s = .fault c) :
    (i = .ld_atA16_SP 0xFFFF ∧ c = .outOfBounds 0x10000)
    ∨ ((i = .ld_atHLinc_A ∨ i = .ld_A_atHLinc)
      ∧ s.params.seOverflow = .fault ∧ readReg .HL s = 0xFFFF ∧ c = .addrRegOverflow .HL 0xFFFF)
    ∨ ((i = .ld_atHLdec_A ∨ i = .ld_A_atHLdec)
      ∧ s.params.seOverflow = .fault ∧ readReg .HL s = 0x0000 ∧ c = .addrRegOverflow .HL 0x0000) := by
  rw [exec_fault_iff] at h
  cases i with
  | ld_atA16_SP a16 =>
    obtain ⟨rfl, rfl⟩ := h
    exact .inl ⟨rfl, rfl⟩
  | ld_atHLinc_A =>
    obtain ⟨hv, hp, rfl⟩ := h
    exact .inr (.inl ⟨.inl rfl, hp, hv, congrArg (Fault.addrRegOverflow .HL) hv⟩)
  | ld_atHLdec_A =>
    obtain ⟨hv, hp, rfl⟩ := h
    exact .inr (.inr ⟨.inl rfl, hp, hv, congrArg (Fault.addrRegOverflow .HL) hv⟩)
  | ld_A_atHLinc =>
    obtain ⟨hv, hp, rfl⟩ := h
    rw [readReg_HL_writeReg_A] at hv ⊢
    exact .inr (.inl ⟨.inr rfl, hp, hv, congrArg (Fault.addrRegOverflow .HL) hv⟩)
  | ld_A_atHLdec =>
    obtain ⟨hv, hp, rfl⟩ := h
    rw [readReg_HL_writeReg_A] at hv ⊢
    exact .inr (.inr ⟨.inr rfl, hp, hv, congrArg (Fault.addrRegOverflow .HL) hv⟩)
  | prefixCb op2 =>
    obtain ⟨hno, -⟩ := prefixedCategory_result (decodeSecondary s.params op2) s
    exact absurd h (hno c)
  | _ => exact h.elim

/-! ### The faults of a step -/

theorem step_of_pc_ge {s : State} (hr : s.run = .running) (hge : memSize ≤ s.pc) : step s = .fault (.outOfBounds s.pc) := by
  rcases step_running hr with ⟨-, h⟩ | ⟨hlt, -⟩ | ⟨hlt, -⟩
  · exact h
  · omega
  · omega

theorem outerAdvance_eq_fault {o : Host.Outcome State Fault Refusal} {c : Fault} (h : outerAdvance o = .fault c) :
    o = .fault c := by
  cases o with
  | fault d => exact h
  | next t => cases h
  | refused r => cases h

/-- A step of a running core faults in the opcode fetch, in an operand fetch, or in the instruction at `pc` (R135). -/
theorem step_eq_fault_iff {s : State} {c : Fault} (hr : s.run = .running) :
    step s = .fault c ↔
      (memSize ≤ s.pc ∧ c = .outOfBounds s.pc)
      ∨ (s.pc < memSize ∧ memSize ≤ s.pc + s.operandsAt ∧ c = .outOfBounds memSize)
      ∨ ∃ i, s.HasInstr i ∧ exec i (s.setPc (s.pc + i.length - 1)) = .fault c := by
  constructor
  · intro h
    rcases step_running hr with ⟨hge, hstep⟩ | ⟨hlt, hge, hstep⟩ | ⟨hlt, i, hi, -⟩
    · rw [hstep] at h
      cases h
      exact .inl ⟨hge, rfl⟩
    · rw [hstep] at h
      cases h
      exact .inr (.inl ⟨hlt, hge, rfl⟩)
    · have hat := hasInstr_of_decodePrimary hlt hi
      rw [step_of_hasInstr hr hat] at h
      exact .inr (.inr ⟨i, hat, outerAdvance_eq_fault h⟩)
  · rintro (⟨hge, rfl⟩ | ⟨hlt, hge, rfl⟩ | ⟨i, hat, hexec⟩)
    · exact step_of_pc_ge hr hge
    · exact step_of_operand_ge hr hlt hge
    · rw [step_of_hasInstr hr hat, hexec, outerAdvance_fault]

/-- The fetch rows of R131 stand in `step_eq_fault_iff` as they are; for the others `HasInstr` of each of the five instructions
that fault is translated to the bytes at `pc`. -/
theorem step_eq_fault_iff_faultsWith {s : State} {c : Fault} (hr : s.run = .running) :
    step s = .fault c ↔ FaultsWith s c := by
  have hincA := hasInstr_iff_of_one_byte (s := s) (i := .ld_atHLinc_A) rfl rfl rfl
  have hAinc := hasInstr_iff_of_one_byte (s := s) (i := .ld_A_atHLinc) rfl rfl rfl
  have hdecA := hasInstr_iff_of_one_byte (s := s) (i := .ld_atHLdec_A) rfl rfl rfl
  have hAdec := hasInstr_iff_of_one_byte (s := s) (i := .ld_A_atHLdec) rfl rfl rfl
  rw [step_eq_fault_iff hr]
  refine or_congr Iff.rfl (or_congr (and_congr Nat.lt_succ_iff Iff.rfl) ⟨?_, ?_⟩)
  · rintro ⟨i, hat, hexec⟩
    rcases exec_fault_cases hexec with ⟨rfl, rfl⟩ | ⟨rfl | rfl, hp, hv, rfl⟩ | ⟨rfl | rfl, hp, hv, rfl⟩
    · obtain ⟨hpc, hop, has, hlo, hhi⟩ := hasInstr_ld_atA16_SP_top_iff.mp hat
      exact .inl ⟨hpc, hop, has, hlo, hhi, rfl⟩
    · obtain ⟨hpc, hop, has⟩ := hincA.mp hat
      exact .inr (.inl ⟨hpc, .inl hop, has, hp, hv, rfl⟩)
    · obtain ⟨hpc, hop, has⟩ := hAinc.mp hat
      exact .inr (.inl ⟨hpc, .inr hop, has, hp, hv, rfl⟩)
    · obtain ⟨hpc, hop, has⟩ := hdecA.mp hat
      exact .inr (.inr ⟨hpc, .inl hop, has, hp, hv, rfl⟩)
    · obtain ⟨hpc, hop, has⟩ := hAdec.mp hat
      exact .inr (.inr ⟨hpc, .inr hop, has, hp, hv, rfl⟩)
  · rintro (⟨hpc, hop, has, hlo, hhi, rfl⟩ | ⟨hpc, hop, has, hp, hv, rfl⟩ | ⟨hpc, hop, has, hp, hv, rfl⟩)
    · exact ⟨_, hasInstr_ld_atA16_SP_top_iff.mpr ⟨hpc, hop, has, hlo, hhi⟩, storeSpAtTopFaults _⟩
    · obtain ⟨hinc, -⟩ := sideEffectOverflowFaults (s.setPc s.pc) hp
      obtain ⟨hload, hstore⟩ := hinc hv
      rcases hop with hop | hop
      · exact ⟨_, hincA.mpr ⟨hpc, hop, has⟩, hstore⟩
      · exact ⟨_, hAinc.mpr ⟨hpc, hop, has⟩, hload⟩
    · obtain ⟨-, hdec⟩ := sideEffectOverflowFaults (s.setPc s.pc) hp
      obtain ⟨hload, hstore⟩ := hdec hv
      rcases hop with hop | hop
      · exact ⟨_, hdecA.mpr ⟨hpc, hop, has⟩, hstore⟩
      · exact ⟨_, hAdec.mpr ⟨hpc, hop, has⟩, hload⟩

/-- Settles O19: the faults by `step_eq_fault_iff_faultsWith`; a step that does not fault completes, as it is never refused. -/
theorem stepFaultsExactlyAsListed : Obligations.StepFaultsExactlyAsListed := by
  intro s hr
  refine ⟨fun c => step_eq_fault_iff_faultsWith hr, fun hno => ?_, ?_⟩
  · rcases runningStepIsNeverRefused s hr with ⟨t, hstep, -⟩ | ⟨c, hstep⟩
    · exact ⟨t, hstep⟩
    · exact absurd ⟨c, (step_eq_fault_iff_faultsWith hr).mp hstep⟩ hno
  · rintro ⟨t, hstep⟩ ⟨c, hc⟩
    rw [(step_eq_fault_iff_faultsWith hr).mpr hc] at hstep
    cases hstep

end Sys2Proof.Machine

/-! The state after construction (rules R29 of 10_state.md and R150 of 70_reset_and_hazards.md). -/

namespace Sys2Proof.Machine

theorem readReg_construct (n : RegName) (p : Params) (memInit : Nat → Byte) :
    readReg n (State.construct p memInit) = 0x0000 := by
  cases hn : n.hiIndex with
  | none => rw [readReg_of_byte hn, rfByte_construct]; rfl
  | some i => rw [readReg_of_word hn, rfByte_construct, rfByte_construct]; rfl

theorem getFlag_construct (x : FlagName) (p : Params) (memInit : Nat → Byte) :
    getFlag x (State.construct p memInit) = false := by
  rw [getFlag, rfByte_construct]; exact BitVec.getLsbD_zero

/-- R153: memory holds the image given, over the whole address space. -/
theorem read_mem_construct (p : Params) (memInit : Nat → Byte) {a : Nat} (h : a ≤ 0xFFFF) :
    (State.construct p memInit).mem.read a = memInit a := by
  have hlt : a < memSize := Nat.lt_succ_of_le h
  rw [mem_construct, Memory.read_ofFunction, if_pos hlt]

/-- Settles O5: each item by its lemma about construction; `State.reset` is the construction with the defaults of R6. -/
theorem constructedStateIsZeroed : Obligations.ConstructedStateIsZeroed := by
  refine ⟨fun p memInit => ⟨rfByte_construct p memInit, fun n => readReg_construct n p memInit,
    fun x => getFlag_construct x p memInit, pc_construct p memInit, fun _ h => read_mem_construct p memInit h,
    run_construct p memInit⟩, ?_⟩
  rw [reset_eq_construct_defaults]
  exact ⟨rfByte_construct _ _, pc_construct _ _, fun _ h => read_mem_construct _ _ h, run_construct _ _⟩

end Sys2Proof.Machine
